-- ==== Sys2Proof/Word.lean ====
section
/-! DEFINITION. The word types of the machine (spec/00_scope.md R7, R10): bytes, 16-bit words, register numbers. -/

namespace Sys2Proof

/-- One 8-bit value: a general register, an I/O register, a byte of SRAM or of flash (R30, R52, R53). -/
abbrev Byte := BitVec 8

/-- One 16-bit word: an instruction word, a register pair, a direct data address (R31, R120). -/
abbrev Word := BitVec 16

/-- A register number 0 to 31, the full 5-bit field of an instruction (R51, R124). -/
abbrev Reg := BitVec 5

end Sys2Proof
end

