-- ==== Sys2Proof/Syntax.lean ====
section
/-! DEFINITION. The instructions: one constructor per row of spec/opcode_table.json, in the table's order, with the
operands of spec/00_scope.md R11. A register operand carries the register's own number (R124: field plus offset), an
immediate its field. Aliases (R142, R143) are other spellings of these constructors. -/

namespace Sys2Proof

/-- The instructions of the hardware (R135). -/
inductive Instr where
  /-- NOP (R206). -/
  | nop
  /-- MOVW Rd+1:Rd, Rr+1:Rr, `d` and `r` the low registers (R216). -/
  | movw (d r : Reg)
  /-- MULS Rdh, Rrh (R190). -/
  | muls (d r : Reg)
  /-- MULSU Rdq, Rrq (R191). -/
  | mulsu (d r : Reg)
  /-- FMUL Rdq, Rrq (R193). -/
  | fmul (d r : Reg)
  /-- FMULS Rdq, Rrq (R194). -/
  | fmuls (d r : Reg)
  /-- FMULSU Rdq, Rrq (R195). -/
  | fmulsu (d r : Reg)
  /-- CPC Rd, Rr (R183). -/
  | cpc (d r : Reg)
  /-- SBC Rd, Rr (R169). -/
  | sbc (d r : Reg)
  /-- ADD Rd, Rr; LSL Rd when d = r (R164). -/
  | add (d r : Reg)
  /-- CPSE Rd, Rr (R276). -/
  | cpse (d r : Reg)
  /-- CP Rd, Rr (R182). -/
  | cp (d r : Reg)
  /-- SUB Rd, Rr (R167). -/
  | sub (d r : Reg)
  /-- ADC Rd, Rr; ROL Rd when d = r (R165). -/
  | adc (d r : Reg)
  /-- AND Rd, Rr; TST Rd when d = r (R174). -/
  | and (d r : Reg)
  /-- EOR Rd, Rr; CLR Rd when d = r (R178). -/
  | eor (d r : Reg)
  /-- OR Rd, Rr (R176). -/
  | or (d r : Reg)
  /-- MOV Rd, Rr (R215). -/
  | mov (d r : Reg)
  /-- CPI Rdh, K8 (R184). -/
  | cpi (d : Reg) (k : Byte)
  /-- SBCI Rdh, K8 (R170). -/
  | sbci (d : Reg) (k : Byte)
  /-- SUBI Rdh, K8 (R168). -/
  | subi (d : Reg) (k : Byte)
  /-- ORI Rdh, K8; SBR (R177). -/
  | ori (d : Reg) (k : Byte)
  /-- ANDI Rdh, K8; CBR with the complement (R175). -/
  | andi (d : Reg) (k : Byte)
  /-- LDD Rd, Z+q; LD Rd, Z when q = 0 (R228). -/
  | lddZ (d : Reg) (q : BitVec 6)
  /-- LDD Rd, Y+q; LD Rd, Y when q = 0 (R228). -/
  | lddY (d : Reg) (q : BitVec 6)
  /-- STD Z+q, Rr; ST Z, Rr when q = 0 (R235). -/
  | stdZ (q : BitVec 6) (r : Reg)
  /-- STD Y+q, Rr; ST Y, Rr when q = 0 (R235). -/
  | stdY (q : BitVec 6) (r : Reg)
  /-- LDS Rd, D16 (R224). -/
  | lds (d : Reg) (k : Word)
  /-- LD Rd, Z+ (R226). -/
  | ldZInc (d : Reg)
  /-- LD Rd, -Z (R227). -/
  | ldZDec (d : Reg)
  /-- LPM Rd, Z (R251). -/
  | lpmZ (d : Reg)
  /-- LPM Rd, Z+ (R252). -/
  | lpmZInc (d : Reg)
  /-- ELPM Rd, Z (R254). -/
  | elpmZ (d : Reg)
  /-- ELPM Rd, Z+ (R255). -/
  | elpmZInc (d : Reg)
  /-- LD Rd, Y+ (R226). -/
  | ldYInc (d : Reg)
  /-- LD Rd, -Y (R227). -/
  | ldYDec (d : Reg)
  /-- LD Rd, X (R225). -/
  | ldX (d : Reg)
  /-- LD Rd, X+ (R226). -/
  | ldXInc (d : Reg)
  /-- LD Rd, -X (R227). -/
  | ldXDec (d : Reg)
  /-- POP Rd (R222). -/
  | pop (d : Reg)
  /-- STS D16, Rr (R231). -/
  | sts (k : Word) (r : Reg)
  /-- ST Z+, Rr (R233). -/
  | stZInc (r : Reg)
  /-- ST -Z, Rr (R234). -/
  | stZDec (r : Reg)
  /-- XCH Z, Rd (R305). -/
  | xch (d : Reg)
  /-- LAS Z, Rd (R306). -/
  | las (d : Reg)
  /-- LAC Z, Rd (R307). -/
  | lac (d : Reg)
  /-- LAT Z, Rd (R308). -/
  | lat (d : Reg)
  /-- ST Y+, Rr (R233). -/
  | stYInc (r : Reg)
  /-- ST -Y, Rr (R234). -/
  | stYDec (r : Reg)
  /-- ST X, Rr (R232). -/
  | stX (r : Reg)
  /-- ST X+, Rr (R233). -/
  | stXInc (r : Reg)
  /-- ST -X, Rr (R234). -/
  | stXDec (r : Reg)
  /-- PUSH Rr (R221). -/
  | push (r : Reg)
  /-- COM Rd (R179). -/
  | com (d : Reg)
  /-- NEG Rd (R180). -/
  | neg (d : Reg)
  /-- SWAP Rd (R185). -/
  | swap (d : Reg)
  /-- INC Rd (R172). -/
  | inc (d : Reg)
  /-- ASR Rd (R188). -/
  | asr (d : Reg)
  /-- LSR Rd (R186). -/
  | lsr (d : Reg)
  /-- ROR Rd (R187). -/
  | ror (d : Reg)
  /-- BSET s (R200). -/
  | bset (s : BitVec 3)
  /-- BCLR s (R201). -/
  | bclr (s : BitVec 3)
  /-- RET (R294). -/
  | ret
  /-- RETI (R295). -/
  | reti
  /-- SLEEP (R208). -/
  | sleep
  /-- BREAK (R207); the Lean name avoids Lean's own word. -/
  | brk
  /-- WDR (R209). -/
  | wdr
  /-- LPM, into R0 from Z (R250). -/
  | lpm
  /-- ELPM, into R0 from RAMPZ:Z (R253). -/
  | elpm
  /-- SPM (R258). -/
  | spm
  /-- SPM Z+ (R259). -/
  | spmZInc
  /-- IJMP (R266). -/
  | ijmp
  /-- EIJMP (R267). -/
  | eijmp
  /-- ICALL (R291). -/
  | icall
  /-- EICALL (R292). -/
  | eicall
  /-- DEC Rd (R173). -/
  | dec (d : Reg)
  /-- DES K (R310). -/
  | des (k : BitVec 4)
  /-- JMP P22, a word address (R268). -/
  | jmp (k : BitVec 22)
  /-- CALL P22, a word address (R293). -/
  | call (k : BitVec 22)
  /-- ADIW Rp+1:Rp, K6, `d` the low register (R166). -/
  | adiw (d : Reg) (k : BitVec 6)
  /-- SBIW Rp+1:Rp, K6, `d` the low register (R171). -/
  | sbiw (d : Reg) (k : BitVec 6)
  /-- CBI IO5, b (R203). -/
  | cbi (a : BitVec 5) (b : BitVec 3)
  /-- SBIC IO5, b (R279). -/
  | sbic (a : BitVec 5) (b : BitVec 3)
  /-- SBI IO5, b (R202). -/
  | sbi (a : BitVec 5) (b : BitVec 3)
  /-- SBIS IO5, b (R280). -/
  | sbis (a : BitVec 5) (b : BitVec 3)
  /-- MUL Rd, Rr (R189). -/
  | mul (d r : Reg)
  /-- IN Rd, IO6 (R217); the Lean name avoids Lean's own word. -/
  | inp (d : Reg) (a : BitVec 6)
  /-- OUT IO6, Rr (R218). -/
  | out (a : BitVec 6) (r : Reg)
  /-- RJMP S12 (R265). -/
  | rjmp (k : BitVec 12)
  /-- RCALL S12 (R290). -/
  | rcall (k : BitVec 12)
  /-- LDI Rdh, K8 (R219). -/
  | ldi (d : Reg) (k : Byte)
  /-- BRBS s, S7 (R281). -/
  | brbs (s : BitVec 3) (k : BitVec 7)
  /-- BRBC s, S7 (R282). -/
  | brbc (s : BitVec 3) (k : BitVec 7)
  /-- BLD Rd, b (R205). -/
  | bld (d : Reg) (b : BitVec 3)
  /-- BST Rd, b (R204). -/
  | bst (d : Reg) (b : BitVec 3)
  /-- SBRC Rr, b (R277). -/
  | sbrc (r : Reg) (b : BitVec 3)
  /-- SBRS Rr, b (R278). -/
  | sbrs (r : Reg) (b : BitVec 3)
deriving DecidableEq, Repr

end Sys2Proof
end

