-- ==== Sys2Proof/Decode.lean ====
section
/-! DEFINITION. The decoder (spec/30_encoding.md R120 to R138): the opcode map R135 as a table of rows, the fields of R124
to R133, and the encoder written from the same patterns. -/

namespace Sys2Proof

/-- R121: the length in words of the instruction whose first word is `w`, told from that word alone: 2 for LDS, STS, JMP
and CALL, otherwise 1 (for a word that is no instruction too). -/
def wordLength (w : Word) : Nat :=
  if w &&& 0xFC0F#16 == 0x9000#16 || w &&& 0xFE0C#16 == 0x940C#16 then 2 else 1

/-! The fields (R124 to R132); in a split field the piece further left is the more significant (R133). -/

/-- `ddddd`, bits 8:4; the source register of a store stands there too. -/
def fieldD (w : Word) : Reg := w.extractLsb' 4 5
/-- `rrrrr` of F_RR: bit 9 and bits 3:0. -/
def fieldR (w : Word) : Reg := w.extractLsb' 9 1 ++ w.extractLsb' 0 4
/-- R125: K8 of F_IMM8, bits 11:8 and 3:0. -/
def fieldK8 (w : Word) : Byte := w.extractLsb' 8 4 ++ w.extractLsb' 0 4
/-- R126: K6 of F_IW, bits 7:6 and 3:0. -/
def fieldK6 (w : Word) : BitVec 6 := w.extractLsb' 6 2 ++ w.extractLsb' 0 4
/-- R127: the displacement of F_DISP, bit 13, bits 11:10 and bits 2:0. -/
def fieldQ (w : Word) : BitVec 6 := w.extractLsb' 13 1 ++ w.extractLsb' 10 2 ++ w.extractLsb' 0 3
/-- R128: the I/O address of F_IO, bits 10:9 and 3:0. -/
def fieldA (w : Word) : BitVec 6 := w.extractLsb' 9 2 ++ w.extractLsb' 0 4
/-- R130: the 22-bit program address of JMP and CALL. -/
def fieldK22 (w k : Word) : BitVec 22 := w.extractLsb' 4 5 ++ w.extractLsb' 0 1 ++ k
/-- R124: a 4-bit field n names register 16 + n. -/
def highReg (n : BitVec 4) : Reg := 1#1 ++ n
/-- R124: a 3-bit field n names register 16 + n. -/
def quarterReg (n : BitVec 3) : Reg := 2#2 ++ n
/-- R124: a 4-bit pair field n names the low register 2n. -/
def evenReg (n : BitVec 4) : Reg := n ++ 0#1
/-- R124: `pp` = p names the low register 24 + 2p. -/
def pairReg (p : BitVec 2) : Reg := 3#2 ++ p ++ 0#1

/-- A row of the opcode map: the word `w` belongs to it when `w & mask = pattern`; `build` reads its fields from the first
word and, for a two-word row, the second (R134). -/
structure Row where
  mask : Word
  pattern : Word
  build : Word → Word → Instr

/-- R134: the row selects the first word `w`. -/
def Row.selects (row : Row) (w : Word) : Bool := w &&& row.mask == row.pattern

/-- NOP, MOVW, the short multiplies and the two-register rows of R135. -/
def rowsRegister : List Row := [
  -- 0000 0000 0000 0000   NOP
  ⟨0xFFFF, 0x0000, fun _ _ => .nop⟩,
  -- 0000 0001 DDDD RRRR   MOVW Rd+1:Rd, Rr+1:Rr
  ⟨0xFF00, 0x0100, fun w _ => .movw (evenReg (w.extractLsb' 4 4)) (evenReg (w.extractLsb' 0 4))⟩,
  -- 0000 0010 dddd rrrr   MULS Rdh, Rrh
  ⟨0xFF00, 0x0200, fun w _ => .muls (highReg (w.extractLsb' 4 4)) (highReg (w.extractLsb' 0 4))⟩,
  -- 0000 0011 0ddd 0rrr   MULSU Rdq, Rrq
  ⟨0xFF88, 0x0300, fun w _ => .mulsu (quarterReg (w.extractLsb' 4 3)) (quarterReg (w.extractLsb' 0 3))⟩,
  -- 0000 0011 0ddd 1rrr   FMUL Rdq, Rrq
  ⟨0xFF88, 0x0308, fun w _ => .fmul (quarterReg (w.extractLsb' 4 3)) (quarterReg (w.extractLsb' 0 3))⟩,
  -- 0000 0011 1ddd 0rrr   FMULS Rdq, Rrq
  ⟨0xFF88, 0x0380, fun w _ => .fmuls (quarterReg (w.extractLsb' 4 3)) (quarterReg (w.extractLsb' 0 3))⟩,
  -- 0000 0011 1ddd 1rrr   FMULSU Rdq, Rrq
  ⟨0xFF88, 0x0388, fun w _ => .fmulsu (quarterReg (w.extractLsb' 4 3)) (quarterReg (w.extractLsb' 0 3))⟩,
  -- 0000 01rd dddd rrrr   CPC Rd, Rr
  ⟨0xFC00, 0x0400, fun w _ => .cpc (fieldD w) (fieldR w)⟩,
  -- 0000 10rd dddd rrrr   SBC Rd, Rr
  ⟨0xFC00, 0x0800, fun w _ => .sbc (fieldD w) (fieldR w)⟩,
  -- 0000 11rd dddd rrrr   ADD Rd, Rr
  ⟨0xFC00, 0x0C00, fun w _ => .add (fieldD w) (fieldR w)⟩,
  -- 0001 00rd dddd rrrr   CPSE Rd, Rr
  ⟨0xFC00, 0x1000, fun w _ => .cpse (fieldD w) (fieldR w)⟩,
  -- 0001 01rd dddd rrrr   CP Rd, Rr
  ⟨0xFC00, 0x1400, fun w _ => .cp (fieldD w) (fieldR w)⟩,
  -- 0001 10rd dddd rrrr   SUB Rd, Rr
  ⟨0xFC00, 0x1800, fun w _ => .sub (fieldD w) (fieldR w)⟩,
  -- 0001 11rd dddd rrrr   ADC Rd, Rr
  ⟨0xFC00, 0x1C00, fun w _ => .adc (fieldD w) (fieldR w)⟩,
  -- 0010 00rd dddd rrrr   AND Rd, Rr
  ⟨0xFC00, 0x2000, fun w _ => .and (fieldD w) (fieldR w)⟩,
  -- 0010 01rd dddd rrrr   EOR Rd, Rr
  ⟨0xFC00, 0x2400, fun w _ => .eor (fieldD w) (fieldR w)⟩,
  -- 0010 10rd dddd rrrr   OR Rd, Rr
  ⟨0xFC00, 0x2800, fun w _ => .or (fieldD w) (fieldR w)⟩,
  -- 0010 11rd dddd rrrr   MOV Rd, Rr
  ⟨0xFC00, 0x2C00, fun w _ => .mov (fieldD w) (fieldR w)⟩]

/-- The immediate and the displacement rows of R135. -/
def rowsImmediate : List Row := [
  -- 0011 KKKK dddd KKKK   CPI Rdh, K8
  ⟨0xF000, 0x3000, fun w _ => .cpi (highReg (w.extractLsb' 4 4)) (fieldK8 w)⟩,
  -- 0100 KKKK dddd KKKK   SBCI Rdh, K8
  ⟨0xF000, 0x4000, fun w _ => .sbci (highReg (w.extractLsb' 4 4)) (fieldK8 w)⟩,
  -- 0101 KKKK dddd KKKK   SUBI Rdh, K8
  ⟨0xF000, 0x5000, fun w _ => .subi (highReg (w.extractLsb' 4 4)) (fieldK8 w)⟩,
  -- 0110 KKKK dddd KKKK   ORI Rdh, K8
  ⟨0xF000, 0x6000, fun w _ => .ori (highReg (w.extractLsb' 4 4)) (fieldK8 w)⟩,
  -- 0111 KKKK dddd KKKK   ANDI Rdh, K8
  ⟨0xF000, 0x7000, fun w _ => .andi (highReg (w.extractLsb' 4 4)) (fieldK8 w)⟩,
  -- 10q0 qq0d dddd 0qqq   LDD Rd, Z+q
  ⟨0xD208, 0x8000, fun w _ => .lddZ (fieldD w) (fieldQ w)⟩,
  -- 10q0 qq0d dddd 1qqq   LDD Rd, Y+q
  ⟨0xD208, 0x8008, fun w _ => .lddY (fieldD w) (fieldQ w)⟩,
  -- 10q0 qq1d dddd 0qqq   STD Z+q, Rr
  ⟨0xD208, 0x8200, fun w _ => .stdZ (fieldQ w) (fieldD w)⟩,
  -- 10q0 qq1d dddd 1qqq   STD Y+q, Rr
  ⟨0xD208, 0x8208, fun w _ => .stdY (fieldQ w) (fieldD w)⟩]

/-- The rows `1001 00sd dddd oooo` of R135. -/
def rowsLoadStore : List Row := [
  -- 1001 000d dddd 0000   LDS Rd, D16
  ⟨0xFE0F, 0x9000, fun w k => .lds (fieldD w) k⟩,
  -- 1001 000d dddd 0001   LD Rd, Z+
  ⟨0xFE0F, 0x9001, fun w _ => .ldZInc (fieldD w)⟩,
  -- 1001 000d dddd 0010   LD Rd, -Z
  ⟨0xFE0F, 0x9002, fun w _ => .ldZDec (fieldD w)⟩,
  -- 1001 000d dddd 0100   LPM Rd, Z
  ⟨0xFE0F, 0x9004, fun w _ => .lpmZ (fieldD w)⟩,
  -- 1001 000d dddd 0101   LPM Rd, Z+
  ⟨0xFE0F, 0x9005, fun w _ => .lpmZInc (fieldD w)⟩,
  -- 1001 000d dddd 0110   ELPM Rd, Z
  ⟨0xFE0F, 0x9006, fun w _ => .elpmZ (fieldD w)⟩,
  -- 1001 000d dddd 0111   ELPM Rd, Z+
  ⟨0xFE0F, 0x9007, fun w _ => .elpmZInc (fieldD w)⟩,
  -- 1001 000d dddd 1001   LD Rd, Y+
  ⟨0xFE0F, 0x9009, fun w _ => .ldYInc (fieldD w)⟩,
  -- 1001 000d dddd 1010   LD Rd, -Y
  ⟨0xFE0F, 0x900A, fun w _ => .ldYDec (fieldD w)⟩,
  -- 1001 000d dddd 1100   LD Rd, X
  ⟨0xFE0F, 0x900C, fun w _ => .ldX (fieldD w)⟩,
  -- 1001 000d dddd 1101   LD Rd, X+
  ⟨0xFE0F, 0x900D, fun w _ => .ldXInc (fieldD w)⟩,
  -- 1001 000d dddd 1110   LD Rd, -X
  ⟨0xFE0F, 0x900E, fun w _ => .ldXDec (fieldD w)⟩,
  -- 1001 000d dddd 1111   POP Rd
  ⟨0xFE0F, 0x900F, fun w _ => .pop (fieldD w)⟩,
  -- 1001 001d dddd 0000   STS D16, Rr
  ⟨0xFE0F, 0x9200, fun w k => .sts k (fieldD w)⟩,
  -- 1001 001d dddd 0001   ST Z+, Rr
  ⟨0xFE0F, 0x9201, fun w _ => .stZInc (fieldD w)⟩,
  -- 1001 001d dddd 0010   ST -Z, Rr
  ⟨0xFE0F, 0x9202, fun w _ => .stZDec (fieldD w)⟩,
  -- 1001 001d dddd 0100   XCH Z, Rd
  ⟨0xFE0F, 0x9204, fun w _ => .xch (fieldD w)⟩,
  -- 1001 001d dddd 0101   LAS Z, Rd
  ⟨0xFE0F, 0x9205, fun w _ => .las (fieldD w)⟩,
  -- 1001 001d dddd 0110   LAC Z, Rd
  ⟨0xFE0F, 0x9206, fun w _ => .lac (fieldD w)⟩,
  -- 1001 001d dddd 0111   LAT Z, Rd
  ⟨0xFE0F, 0x9207, fun w _ => .lat (fieldD w)⟩,
  -- 1001 001d dddd 1001   ST Y+, Rr
  ⟨0xFE0F, 0x9209, fun w _ => .stYInc (fieldD w)⟩,
  -- 1001 001d dddd 1010   ST -Y, Rr
  ⟨0xFE0F, 0x920A, fun w _ => .stYDec (fieldD w)⟩,
  -- 1001 001d dddd 1100   ST X, Rr
  ⟨0xFE0F, 0x920C, fun w _ => .stX (fieldD w)⟩,
  -- 1001 001d dddd 1101   ST X+, Rr
  ⟨0xFE0F, 0x920D, fun w _ => .stXInc (fieldD w)⟩,
  -- 1001 001d dddd 1110   ST -X, Rr
  ⟨0xFE0F, 0x920E, fun w _ => .stXDec (fieldD w)⟩,
  -- 1001 001d dddd 1111   PUSH Rr
  ⟨0xFE0F, 0x920F, fun w _ => .push (fieldD w)⟩]

/-- The rows `1001 010d dddd oooo` of R135 with a register operand. -/
def rowsOneOperand : List Row := [
  -- 1001 010d dddd 0000   COM Rd
  ⟨0xFE0F, 0x9400, fun w _ => .com (fieldD w)⟩,
  -- 1001 010d dddd 0001   NEG Rd
  ⟨0xFE0F, 0x9401, fun w _ => .neg (fieldD w)⟩,
  -- 1001 010d dddd 0010   SWAP Rd
  ⟨0xFE0F, 0x9402, fun w _ => .swap (fieldD w)⟩,
  -- 1001 010d dddd 0011   INC Rd
  ⟨0xFE0F, 0x9403, fun w _ => .inc (fieldD w)⟩,
  -- 1001 010d dddd 0101   ASR Rd
  ⟨0xFE0F, 0x9405, fun w _ => .asr (fieldD w)⟩,
  -- 1001 010d dddd 0110   LSR Rd
  ⟨0xFE0F, 0x9406, fun w _ => .lsr (fieldD w)⟩,
  -- 1001 010d dddd 0111   ROR Rd
  ⟨0xFE0F, 0x9407, fun w _ => .ror (fieldD w)⟩,
  -- 1001 0100 0sss 1000   BSET s
  ⟨0xFF8F, 0x9408, fun w _ => .bset (w.extractLsb' 4 3)⟩]

/-- The remaining rows of R135, in the table's order. -/
def rowsRest : List Row := [
  -- 1001 0100 1sss 1000   BCLR s
  ⟨0xFF8F, 0x9488, fun w _ => .bclr (w.extractLsb' 4 3)⟩,
  -- 1001 0101 0000 1000   RET
  ⟨0xFFFF, 0x9508, fun _ _ => .ret⟩,
  -- 1001 0101 0001 1000   RETI
  ⟨0xFFFF, 0x9518, fun _ _ => .reti⟩,
  -- 1001 0101 1000 1000   SLEEP
  ⟨0xFFFF, 0x9588, fun _ _ => .sleep⟩,
  -- 1001 0101 1001 1000   BREAK
  ⟨0xFFFF, 0x9598, fun _ _ => .brk⟩,
  -- 1001 0101 1010 1000   WDR
  ⟨0xFFFF, 0x95A8, fun _ _ => .wdr⟩,
  -- 1001 0101 1100 1000   LPM
  ⟨0xFFFF, 0x95C8, fun _ _ => .lpm⟩,
  -- 1001 0101 1101 1000   ELPM
  ⟨0xFFFF, 0x95D8, fun _ _ => .elpm⟩,
  -- 1001 0101 1110 1000   SPM
  ⟨0xFFFF, 0x95E8, fun _ _ => .spm⟩,
  -- 1001 0101 1111 1000   SPM Z+
  ⟨0xFFFF, 0x95F8, fun _ _ => .spmZInc⟩,
  -- 1001 0100 0000 1001   IJMP
  ⟨0xFFFF, 0x9409, fun _ _ => .ijmp⟩,
  -- 1001 0100 0001 1001   EIJMP
  ⟨0xFFFF, 0x9419, fun _ _ => .eijmp⟩,
  -- 1001 0101 0000 1001   ICALL
  ⟨0xFFFF, 0x9509, fun _ _ => .icall⟩,
  -- 1001 0101 0001 1001   EICALL
  ⟨0xFFFF, 0x9519, fun _ _ => .eicall⟩,
  -- 1001 010d dddd 1010   DEC Rd
  ⟨0xFE0F, 0x940A, fun w _ => .dec (fieldD w)⟩,
  -- 1001 0100 KKKK 1011   DES K
  ⟨0xFF0F, 0x940B, fun w _ => .des (w.extractLsb' 4 4)⟩,
  -- 1001 010k kkkk 110k   JMP P22
  ⟨0xFE0E, 0x940C, fun w k => .jmp (fieldK22 w k)⟩,
  -- 1001 010k kkkk 111k   CALL P22
  ⟨0xFE0E, 0x940E, fun w k => .call (fieldK22 w k)⟩,
  -- 1001 0110 KKpp KKKK   ADIW Rp+1:Rp, K6
  ⟨0xFF00, 0x9600, fun w _ => .adiw (pairReg (w.extractLsb' 4 2)) (fieldK6 w)⟩,
  -- 1001 0111 KKpp KKKK   SBIW Rp+1:Rp, K6
  ⟨0xFF00, 0x9700, fun w _ => .sbiw (pairReg (w.extractLsb' 4 2)) (fieldK6 w)⟩,
  -- 1001 1000 AAAA Abbb   CBI IO5, b
  ⟨0xFF00, 0x9800, fun w _ => .cbi (w.extractLsb' 3 5) (w.extractLsb' 0 3)⟩,
  -- 1001 1001 AAAA Abbb   SBIC IO5, b
  ⟨0xFF00, 0x9900, fun w _ => .sbic (w.extractLsb' 3 5) (w.extractLsb' 0 3)⟩,
  -- 1001 1010 AAAA Abbb   SBI IO5, b
  ⟨0xFF00, 0x9A00, fun w _ => .sbi (w.extractLsb' 3 5) (w.extractLsb' 0 3)⟩,
  -- 1001 1011 AAAA Abbb   SBIS IO5, b
  ⟨0xFF00, 0x9B00, fun w _ => .sbis (w.extractLsb' 3 5) (w.extractLsb' 0 3)⟩,
  -- 1001 11rd dddd rrrr   MUL Rd, Rr
  ⟨0xFC00, 0x9C00, fun w _ => .mul (fieldD w) (fieldR w)⟩,
  -- 1011 0AAd dddd AAAA   IN Rd, IO6
  ⟨0xF800, 0xB000, fun w _ => .inp (fieldD w) (fieldA w)⟩,
  -- 1011 1AAd dddd AAAA   OUT IO6, Rr
  ⟨0xF800, 0xB800, fun w _ => .out (fieldA w) (fieldD w)⟩,
  -- 1100 kkkk kkkk kkkk   RJMP S12
  ⟨0xF000, 0xC000, fun w _ => .rjmp (w.extractLsb' 0 12)⟩,
  -- 1101 kkkk kkkk kkkk   RCALL S12
  ⟨0xF000, 0xD000, fun w _ => .rcall (w.extractLsb' 0 12)⟩,
  -- 1110 KKKK dddd KKKK   LDI Rdh, K8
  ⟨0xF000, 0xE000, fun w _ => .ldi (highReg (w.extractLsb' 4 4)) (fieldK8 w)⟩,
  -- 1111 00kk kkkk ksss   BRBS s, S7
  ⟨0xFC00, 0xF000, fun w _ => .brbs (w.extractLsb' 0 3) (w.extractLsb' 3 7)⟩,
  -- 1111 01kk kkkk ksss   BRBC s, S7
  ⟨0xFC00, 0xF400, fun w _ => .brbc (w.extractLsb' 0 3) (w.extractLsb' 3 7)⟩,
  -- 1111 100d dddd 0bbb   BLD Rd, b
  ⟨0xFE08, 0xF800, fun w _ => .bld (fieldD w) (w.extractLsb' 0 3)⟩,
  -- 1111 101d dddd 0bbb   BST Rd, b
  ⟨0xFE08, 0xFA00, fun w _ => .bst (fieldD w) (w.extractLsb' 0 3)⟩,
  -- 1111 110d dddd 0bbb   SBRC Rr, b
  ⟨0xFE08, 0xFC00, fun w _ => .sbrc (fieldD w) (w.extractLsb' 0 3)⟩,
  -- 1111 111d dddd 0bbb   SBRS Rr, b
  ⟨0xFE08, 0xFE00, fun w _ => .sbrs (fieldD w) (w.extractLsb' 0 3)⟩]

/-- The opcode map, the 97 rows of R135 in the order of spec/opcode_table.json. -/
def opcodeMap : List Row :=
  rowsRegister ++ (rowsImmediate ++ (rowsLoadStore ++ (rowsOneOperand ++ rowsRest)))

/-- R134: the instruction of the first word `w` and, for a two-word row, the second word `k`; none for a word that matches
no row (R136, R137). -/
def decodeWords (w k : Word) : Option Instr :=
  (opcodeMap.find? (fun row => row.selects w)).map (fun row => row.build w k)

/-- What the decoder makes of a list of program bytes. -/
inductive Decoded where
  /-- An instruction, and the bytes after it. -/
  | instr (i : Instr) (rest : List Byte)
  /-- R138: the first word is reserved or unassigned. -/
  | reserved (w : Word)
  /-- The bytes end inside the instruction. -/
  | truncated
deriving DecidableEq, Repr

/-- A program word from its bytes, the low byte at the lower address (R96 item 3). -/
def wordOfBytes (lo hi : Byte) : Word := hi ++ lo

/-- The decoder over the bytes of program memory, lowest address first: total, and rejecting by name. -/
def decode : List Byte → Decoded
  | lo :: hi :: rest =>
    let w := wordOfBytes lo hi
    if wordLength w = 2 then
      match rest with
      | lo2 :: hi2 :: rest2 =>
        match decodeWords w (wordOfBytes lo2 hi2) with
        | some i => .instr i rest2
        | none => .reserved w
      | _ => .truncated
    else
      match decodeWords w 0 with
      | some i => .instr i rest
      | none => .reserved w
  | _ => .truncated

/-! The encoder: the patterns of R123 and R135 with the operands in their fields. -/

/-- F_RR, `oooo oord dddd rrrr`. -/
def encRR (op : BitVec 6) (d r : Reg) : Word := op ++ r.extractLsb' 4 1 ++ d ++ r.extractLsb' 0 4
/-- F_IMM8, `oooo KKKK dddd KKKK`. -/
def encImm8 (op : BitVec 4) (d : Reg) (k : Byte) : Word :=
  op ++ k.extractLsb' 4 4 ++ d.extractLsb' 0 4 ++ k.extractLsb' 0 4
/-- F_MULQ, `0000 0011 oddd orrr`. -/
def encMulQ (o1 o0 : BitVec 1) (d r : Reg) : Word :=
  0x03#8 ++ o1 ++ d.extractLsb' 0 3 ++ o0 ++ r.extractLsb' 0 3
/-- F_DISP, `10q0 qqsd dddd yqqq`. -/
def encDisp (s y : BitVec 1) (d : Reg) (q : BitVec 6) : Word :=
  2#2 ++ q.extractLsb' 5 1 ++ 0#1 ++ q.extractLsb' 3 2 ++ s ++ d ++ y ++ q.extractLsb' 0 3
/-- F_LS (and the first word of F_LS32), `1001 00sd dddd oooo`. -/
def encLs (s : BitVec 1) (d : Reg) (op : BitVec 4) : Word := 0x24#6 ++ s ++ d ++ op
/-- F_R, `1001 010d dddd oooo`. -/
def encR (d : Reg) (op : BitVec 4) : Word := 0x4A#7 ++ d ++ op
/-- F_SREG, `1001 0100 Bsss 1000`. -/
def encSreg (b : BitVec 1) (s : BitVec 3) : Word := 0x94#8 ++ b ++ s ++ 8#4
/-- F_ABS22, first word, `1001 010k kkkk 11ck`. -/
def encAbs22 (c : BitVec 1) (k : BitVec 22) : Word := 0x4A#7 ++ k.extractLsb' 17 5 ++ 3#2 ++ c ++ k.extractLsb' 16 1
/-- F_IW, `1001 011o KKpp KKKK`. -/
def encIw (o : BitVec 1) (d : Reg) (k : BitVec 6) : Word :=
  0x4B#7 ++ o ++ k.extractLsb' 4 2 ++ d.extractLsb' 1 2 ++ k.extractLsb' 0 4
/-- F_IOBIT, `1001 10oo AAAA Abbb`. -/
def encIoBit (op : BitVec 2) (a : BitVec 5) (b : BitVec 3) : Word := 0x26#6 ++ op ++ a ++ b
/-- F_IO, `1011 sAAd dddd AAAA`. -/
def encIo (s : BitVec 1) (d : Reg) (a : BitVec 6) : Word :=
  0xB#4 ++ s ++ a.extractLsb' 4 2 ++ d ++ a.extractLsb' 0 4
/-- F_BR, `1111 0Bkk kkkk ksss`. -/
def encBr (b : BitVec 1) (s : BitVec 3) (k : BitVec 7) : Word := 0x1E#5 ++ b ++ k ++ s
/-- F_RBIT, `1111 1ood dddd 0bbb`. -/
def encRBit (op : BitVec 2) (d : Reg) (b : BitVec 3) : Word := 0x1F#5 ++ op ++ d ++ 0#1 ++ b

/-- The words of an instruction, first word first (R123, R135). -/
def encode : Instr → List Word
  | .nop => [0x0000]
  | .movw d r => [0x01#8 ++ d.extractLsb' 1 4 ++ r.extractLsb' 1 4]
  | .muls d r => [0x02#8 ++ d.extractLsb' 0 4 ++ r.extractLsb' 0 4]
  | .mulsu d r => [encMulQ 0 0 d r]
  | .fmul d r => [encMulQ 0 1 d r]
  | .fmuls d r => [encMulQ 1 0 d r]
  | .fmulsu d r => [encMulQ 1 1 d r]
  | .cpc d r => [encRR 0b000001 d r]
  | .sbc d r => [encRR 0b000010 d r]
  | .add d r => [encRR 0b000011 d r]
  | .cpse d r => [encRR 0b000100 d r]
  | .cp d r => [encRR 0b000101 d r]
  | .sub d r => [encRR 0b000110 d r]
  | .adc d r => [encRR 0b000111 d r]
  | .and d r => [encRR 0b001000 d r]
  | .eor d r => [encRR 0b001001 d r]
  | .or d r => [encRR 0b001010 d r]
  | .mov d r => [encRR 0b001011 d r]
  | .cpi d k => [encImm8 0b0011 d k]
  | .sbci d k => [encImm8 0b0100 d k]
  | .subi d k => [encImm8 0b0101 d k]
  | .ori d k => [encImm8 0b0110 d k]
  | .andi d k => [encImm8 0b0111 d k]
  | .lddZ d q => [encDisp 0 0 d q]
  | .lddY d q => [encDisp 0 1 d q]
  | .stdZ q r => [encDisp 1 0 r q]
  | .stdY q r => [encDisp 1 1 r q]
  | .lds d k => [encLs 0 d 0b0000, k]
  | .ldZInc d => [encLs 0 d 0b0001]
  | .ldZDec d => [encLs 0 d 0b0010]
  | .lpmZ d => [encLs 0 d 0b0100]
  | .lpmZInc d => [encLs 0 d 0b0101]
  | .elpmZ d => [encLs 0 d 0b0110]
  | .elpmZInc d => [encLs 0 d 0b0111]
  | .ldYInc d => [encLs 0 d 0b1001]
  | .ldYDec d => [encLs 0 d 0b1010]
  | .ldX d => [encLs 0 d 0b1100]
  | .ldXInc d => [encLs 0 d 0b1101]
  | .ldXDec d => [encLs 0 d 0b1110]
  | .pop d => [encLs 0 d 0b1111]
  | .sts k r => [encLs 1 r 0b0000, k]
  | .stZInc r => [encLs 1 r 0b0001]
  | .stZDec r => [encLs 1 r 0b0010]
  | .xch d => [encLs 1 d 0b0100]
  | .las d => [encLs 1 d 0b0101]
  | .lac d => [encLs 1 d 0b0110]
  | .lat d => [encLs 1 d 0b0111]
  | .stYInc r => [encLs 1 r 0b1001]
  | .stYDec r => [encLs 1 r 0b1010]
  | .stX r => [encLs 1 r 0b1100]
  | .stXInc r => [encLs 1 r 0b1101]
  | .stXDec r => [encLs 1 r 0b1110]
  | .push r => [encLs 1 r 0b1111]
  | .com d => [encR d 0b0000]
  | .neg d => [encR d 0b0001]
  | .swap d => [encR d 0b0010]
  | .inc d => [encR d 0b0011]
  | .asr d => [encR d 0b0101]
  | .lsr d => [encR d 0b0110]
  | .ror d => [encR d 0b0111]
  | .bset s => [encSreg 0 s]
  | .bclr s => [encSreg 1 s]
  | .ret => [0x9508]
  | .reti => [0x9518]
  | .sleep => [0x9588]
  | .brk => [0x9598]
  | .wdr => [0x95A8]
  | .lpm => [0x95C8]
  | .elpm => [0x95D8]
  | .spm => [0x95E8]
  | .spmZInc => [0x95F8]
  | .ijmp => [0x9409]
  | .eijmp => [0x9419]
  | .icall => [0x9509]
  | .eicall => [0x9519]
  | .dec d => [encR d 0b1010]
  | .des k => [0x94#8 ++ k ++ 0xB#4]
  | .jmp k => [encAbs22 0 k, k.extractLsb' 0 16]
  | .call k => [encAbs22 1 k, k.extractLsb' 0 16]
  | .adiw d k => [encIw 0 d k]
  | .sbiw d k => [encIw 1 d k]
  | .cbi a b => [encIoBit 0 a b]
  | .sbic a b => [encIoBit 1 a b]
  | .sbi a b => [encIoBit 2 a b]
  | .sbis a b => [encIoBit 3 a b]
  | .mul d r => [encRR 0b100111 d r]
  | .inp d a => [encIo 0 d a]
  | .out a r => [encIo 1 r a]
  | .rjmp k => [0xC#4 ++ k]
  | .rcall k => [0xD#4 ++ k]
  | .ldi d k => [encImm8 0b1110 d k]
  | .brbs s k => [encBr 0 s k]
  | .brbc s k => [encBr 1 s k]
  | .bld d b => [encRBit 0 d b]
  | .bst d b => [encRBit 1 d b]
  | .sbrc r b => [encRBit 2 r b]
  | .sbrs r b => [encRBit 3 r b]

/-- The first word of an instruction. -/
def firstWord (i : Instr) : Word := (encode i).headD 0

/-- The bytes of a list of words as program memory holds them, low byte first (R96). -/
def bytesOfWords : List Word → List Byte
  | [] => []
  | w :: ws => w.extractLsb' 0 8 :: w.extractLsb' 8 8 :: bytesOfWords ws

/-- The instruction the decoder reads from an instruction whose `nbits` bits are `w` (first word least significant), every
bit above them 0, laid out as program memory stores it. -/
def decodeTableWord (nbits w : Nat) : Option Instr :=
  let v := w % 2 ^ nbits
  match decode (bytesOfWords [BitVec.ofNat 16 v, BitVec.ofNat 16 (v / 65536)]) with
  | .instr i _ => some i
  | .reserved _ => none
  | .truncated => none

end Sys2Proof
end

