-- ==== Sys2Proof/Config.lean ====
section
/-! DEFINITION. The implementation parameters of the machine (spec/00_scope.md R7), their reference values, the
configuration check (R8, spec/92 D35, spec/93 X1 to X5), and the platform functions the spec leaves open, as opaque
constants about which nothing can be proved. -/

namespace Sys2Proof

/-- `CORE`, the core level (R2, R7, R146). -/
inductive Core where
  | avr1 | avr2 | avr25 | avr3 | avr4 | avr5 | avr6 | xmega | xmegaRmw | avrTiny
deriving DecidableEq, Repr

/-- `MEMORY_MAP`, the layout of the data space (R7, R80, R82). -/
inductive MemoryMap where
  | atmega | xmega | avrTiny | avr1
deriving DecidableEq, Repr

/-- `BREAK_MODE`, what BREAK does (R7, R207). -/
inductive BreakMode where
  | stop | nop
deriving DecidableEq, Repr

/-- Who answers for a part the spec leaves to the platform (R346): `reference` is the behaviour R346 names as the
reference, `platform` a function of the platform's own, about which nothing is known. -/
inductive Supply where
  | reference | platform
deriving DecidableEq, Repr

/-- The parameters of R7. A value is fixed for a machine and held in its state, so that every claim about all states is
a claim about all configurations. -/
structure Config where
  /-- `CORE`. -/
  core : Core
  /-- `PC_BITS`, 16 or 22. -/
  pcBits : Nat
  /-- `FLASH_WORDS`, the number of 16-bit words of program memory. -/
  flashWords : Nat
  /-- `SP_BITS`, 8 or 16. -/
  spBits : Nat
  /-- `MEMORY_MAP`. -/
  memoryMap : MemoryMap
  /-- `HAS_EXT_IO`: extended I/O at data 0x0060 to 0x00FF. -/
  hasExtIo : Bool
  /-- `RAMSTART`. -/
  ramStart : Nat
  /-- `RAMEND`. -/
  ramEnd : Nat
  /-- `HAS_RAMPX`. -/
  hasRampX : Bool
  /-- `HAS_RAMPY`. -/
  hasRampY : Bool
  /-- `HAS_RAMPZ`. -/
  hasRampZ : Bool
  /-- `HAS_RAMPD`. -/
  hasRampD : Bool
  /-- `HAS_EIND`. -/
  hasEind : Bool
  /-- `RAMP_BITS`, the implemented bits of each RAMP register (spec/92 D26: all 8 unless refined). -/
  rampBits : Nat
  /-- `EIND_BITS`, the implemented bits of EIND (spec/92 D26). -/
  eindBits : Nat
  /-- `SP_RESET`. -/
  spReset : Nat
  /-- `RESET_VECTOR`, a word address. -/
  resetVector : Nat
  /-- `VECTOR_STRIDE`, in words. -/
  vectorStride : Nat
  /-- `NUM_VECTORS`, vector 0 being reset. -/
  numVectors : Nat
  /-- `VectorAddr`: the table of R327, or the platform's replacement. -/
  vectorAddr : Supply
  /-- `IoDevice`: plain byte storage, or the platform's devices (R346). -/
  ioDevice : Supply
  /-- `Irq`: the pending set held as plain data in the state, or the platform's interrupt logic (R322, R323). -/
  irq : Supply
  /-- With `irq = reference`: the sources whose request the entry of their handler clears (R323). -/
  irqClearOnEntry : List Nat
  /-- `SleepEnabled`: always true, or the platform's predicate (R208). -/
  sleepEnabled : Supply
  /-- `BREAK_MODE`. -/
  breakMode : BreakMode
  /-- `SpmEffect`: refuse, or the platform's function (R258). -/
  spmEffect : Supply
  /-- `RAMPZ_FOR_DATA`: RAMPZ is prepended to Z in data accesses (R92). -/
  rampzForData : Bool
  /-- `HAS_SPM`. -/
  hasSpm : Bool
  /-- `HAS_BREAK`. -/
  hasBreak : Bool
  /-- `HAS_DES`. -/
  hasDes : Bool
  /-- Whether an AVR1 member has the zero-operand LPM ("on most members", R146, R250). -/
  avr1HasLpm : Bool
deriving DecidableEq, Repr

namespace Config

/-- The reference configuration, the last column of R7 (spec/92 D1). -/
def reference : Config where
  core := .avr5
  pcBits := 16
  flashWords := 16384
  spBits := 16
  memoryMap := .atmega
  hasExtIo := true
  ramStart := 0x0100
  ramEnd := 0x08FF
  hasRampX := false
  hasRampY := false
  hasRampZ := false
  hasRampD := false
  hasEind := false
  rampBits := 8
  eindBits := 8
  spReset := 0x08FF
  resetVector := 0
  vectorStride := 2
  numVectors := 26
  vectorAddr := .reference
  ioDevice := .reference
  irq := .reference
  irqClearOnEntry := []
  sleepEnabled := .reference
  breakMode := .stop
  spmEffect := .reference
  rampzForData := false
  hasSpm := true
  hasBreak := true
  hasDes := false
  avr1HasLpm := true

/-- The core is an XMEGA core (R334). -/
def isXmega (c : Config) : Bool := c.core == .xmega || c.core == .xmegaRmw

/-- The core level has the two-word JMP and CALL (R146, R268). -/
def coreHasJmp (c : Config) : Bool :=
  c.core == .avr3 || c.core == .avr5 || c.core == .avr6 || c.isXmega

/-- The core level has EIJMP and EICALL (R8 item 4, R146, R267). -/
def coreHasEijmp (c : Config) : Bool := c.core == .avr6 || c.isXmega

/-- Every RAMP register takes part in data addressing: X, Y, Z and the direct addresses are 24 bits wide (R8 item 5, R92). -/
def allRampsForData (c : Config) : Bool :=
  c.hasRampX && c.hasRampY && c.hasRampZ && c.rampzForData && c.hasRampD

/-- The highest data address that the map defines (R80, R82): `RAMEND`, or the end of the I/O registers where that is
higher; the AVR1 map has no RAM. -/
def dataSpaceEnd (c : Config) : Nat :=
  match c.memoryMap with
  | .atmega => max (if c.hasExtIo then 0xFF else 0x5F) c.ramEnd
  | .xmega => max 0x1FFF c.ramEnd
  | .avrTiny => max 0x3F c.ramEnd
  | .avr1 => 0x5F

/-- X1: the only widths the source names. -/
def widthsOk (c : Config) : Bool :=
  (c.pcBits == 16 || c.pcBits == 22) && (c.spBits == 8 || c.spBits == 16)
/-- X2: sizes that fit. X2 and R8 item 5: a RAM address space above 64 KiB comes with all four RAMP registers, each used
for data addressing. -/
def sizesOk (c : Config) : Bool :=
  decide (c.flashWords ≤ 2 ^ c.pcBits) && decide (c.ramStart ≤ c.ramEnd) &&
    (decide (c.ramEnd < 65536) || c.allRampsForData)
/-- X3, R267: EIND needs the 22-bit PC and a core with EIJMP and EICALL; `CORE = AVR6` needs the 22-bit PC. -/
def eindOk (c : Config) : Bool :=
  (!c.hasEind || (c.pcBits == 22 && c.coreHasEijmp)) && (c.core != .avr6 || c.pcBits == 22)
/-- X5: the vector table lies inside the flash. -/
def vectorsOk (c : Config) : Bool :=
  decide (c.resetVector + (c.numVectors - 1) * c.vectorStride < c.flashWords)
/-- R8 item 1: an 8-bit SP exactly when the data address space has at most 256 bytes. -/
def spWidthOk (c : Config) : Bool := (c.spBits == 8) == decide (c.dataSpaceEnd < 256)
/-- R8 item 2: more than 8 KiB of ROM comes with JMP and CALL. -/
def jmpOk (c : Config) : Bool := decide (c.flashWords ≤ 4096) || c.coreHasJmp
/-- R8 item 3: more than 64 KiB of ROM comes with RAMPZ and ELPM. A core level with JMP has ELPM (R146). -/
def rampzOk (c : Config) : Bool := decide (c.flashWords ≤ 32768) || (c.hasRampZ && c.coreHasJmp)
/-- R8 item 4: more than 128 KiB of ROM comes with a 22-bit PC, EIND, EIJMP and EICALL. -/
def bigRomOk (c : Config) : Bool := decide (c.flashWords ≤ 65536) || (c.pcBits == 22 && c.hasEind && c.coreHasEijmp)
/-- R7: `RAMPZ_FOR_DATA` is true only with RAMPZ and a data space above 64 KiB. -/
def rampzDataOk (c : Config) : Bool := !c.rampzForData || (c.hasRampZ && decide (65536 ≤ c.dataSpaceEnd))
/-- R48: a segment register has at most 8 bits. -/
def segmentBitsOk (c : Config) : Bool := decide (c.rampBits ≤ 8) && decide (c.eindBits ≤ 8)

/-- The configuration check: the constraints of R8 and of spec/93 X1, X2, X3, X5. R8 says nothing of `CORE` against
`MEMORY_MAP`, and neither does the check (notes/assumptions/27.md). -/
def wf (c : Config) : Bool :=
  c.widthsOk && c.sizesOk && c.eindOk && c.vectorsOk && c.spWidthOk && c.jmpOk && c.rampzOk && c.bigRomOk &&
    c.rampzDataOk && c.segmentBitsOk

end Config

/-- What a platform's SPM answers: the bytes of flash and of device storage it writes, and its own new state. -/
structure SpmResult where
  flashWrites : List (Nat × Byte)
  ioWrites : List (Nat × Byte)
  platform : Nat
deriving DecidableEq, Repr, Inhabited

namespace Config

/-- FREE VALUE. `IoDevice.read(a)` of a platform's devices: the byte and the platform's new state (R86, R100, R346). -/
opaque deviceRead (platform : Nat) (a : Nat) : Byte × Nat

/-- FREE VALUE. `IoDevice.write(a, v)`: the platform's new state (R87, R346). -/
opaque deviceWrite (platform : Nat) (a : Nat) (v : Byte) : Nat

/-- FREE VALUE. `IoDevice.wdr()`: the platform's new state (R209). -/
opaque deviceWdr (platform : Nat) : Nat

/-- FREE VALUE. The platform's own reset (R360: "IoDevice, Irq: their own reset"). -/
opaque deviceReset (platform : Nat) : Nat

/-- FREE VALUE. `Irq.pending()` of a platform's interrupt logic (R323). -/
opaque irqPending (platform : Nat) : List Nat

/-- FREE VALUE. `Irq.acknowledge(n)` (R328). -/
opaque irqAcknowledge (platform : Nat) (n : Nat) : Nat

/-- FREE VALUE. `Irq.reti()` of an XMEGA interrupt controller (R334). -/
opaque irqReti (platform : Nat) : Nat

/-- FREE VALUE. `SleepEnabled()` of a platform, over the device storage and the platform's state (R208). -/
opaque sleepIsEnabled (io : List (Nat × Byte)) (platform : Nat) : Bool

/-- FREE VALUE. The platform's replacement of `VectorAddr(n)` (R327). -/
opaque platformVector (platform : Nat) (n : Nat) : Nat

/-- FREE VALUE. `SpmEffect(ProgMem, IoDevice, RAMPZ:Z, R1:R0)` (R258). -/
opaque platformSpm (flash io : List (Nat × Byte)) (platform : Nat) (address : BitVec 24) (data : Word) : SpmResult

/-- FREE VALUE. Whether SPM Z+ carries out of Z into RAMPZ; the supplier of `SpmEffect` decides it (R259). -/
opaque spmCarriesIntoRampz : Bool

/-- FREE VALUE. `DesRound(K, H, R0..R15)`, the new values of R0 to R15 (R310). -/
opaque desRound (k : BitVec 4) (h : Bool) (low : Vector Byte 16) : Vector Byte 16

end Config

end Sys2Proof
end

