-- ==== Sys2Proof/Machine/State.lean ====
section
/-! DEFINITION. The state of the machine (spec/10_state.md), the reasons a step can stop, and the state after reset
(spec/10_state.md R62, spec/70_reset_and_hazards.md R360). -/

namespace Sys2Proof.Machine

open Sys2Proof

/-- A byte memory: the addresses that hold a byte other than the one an unlisted address reads as, in rising order. -/
abbrev Memory := List Host.Cell

/-- R61: the run state of the core. -/
inductive RunState where
  /-- The core executes instructions. -/
  | running
  /-- After SLEEP, until an interrupt is taken (R208). -/
  | sleeping
  /-- After BREAK with `BREAK_MODE = stop`: the run has ended (R207, R347). -/
  | stopped
deriving DecidableEq, Repr

/-- The model faults of spec/60_exceptions.md R321. A fault is no hardware event: it stops the model where the spec gives
the hardware no behaviour, leaves the state before the step, and is safe (nothing is claimed of the run beyond it). -/
inductive Fault where
  /-- Raised by the fetch, the fetch of a second word and the look-ahead of a taken skip: the word address is at or beyond
  `FLASH_WORDS` (R35, R90). Safe. -/
  | fetchOutOfRange (wordAddress : Nat)
  /-- Raised by decode: the word is one of the 1554 reserved or unassigned first words (R138). Safe. -/
  | reservedOpcode (w : Word)
  /-- Raised when the configured core, its options or its register set lack the instruction (R138, R146, R63, R296); also by
  interrupt entry on the AVR1 core. Safe. -/
  | notImplemented (mnemonic : String)
  /-- Raised by every data-space access, push, pop, call, return and interrupt entry whose address maps to nothing (R89).
  Safe. -/
  | dataOutOfRange (a : Nat)
  /-- Raised by LPM and ELPM: the byte address is beyond the flash (R91). Safe. -/
  | progReadOutOfRange (b : Nat)
  /-- Raised by LD and ST with post-increment or pre-decrement and LPM and ELPM with Z+: the data register is a byte of the
  updated pointer; it carries the instruction's first word (R229, R256). Safe. -/
  | undefinedOperandCombination (w : Word)
  /-- Raised by SPM and SPM Z+ with `SpmEffect = refuse`, the reference (R258). Safe. -/
  | spmNotModelled
deriving DecidableEq, Repr

/-- Why the model gives no meaning at all. -/
inductive Refusal where
  /-- Raised by an arm of `exec` whose instruction has no meaning yet; no arm is one. Safe. -/
  | notModelled (mnemonic : String)
  /-- Raised by `State.launch` for a configuration that the check refuses before the first step (R8, spec/92 D35). Safe. -/
  | configuration
deriving DecidableEq, Repr

/-- Everything the spec gives the machine, as plain data. -/
structure State where
  /-- The parameters of R7; no step changes them. -/
  cfg : Config
  /-- R30: the general registers R0 to R31. -/
  regs : Vector Byte 32
  /-- R34: the program counter, a word address of `PC_BITS` bits. -/
  pc : BitVec 22
  /-- R36: SREG, bits I T H S V N Z C from 7 down to 0. -/
  sreg : Byte
  /-- R46: the stack pointer, `SP_BITS` bits. -/
  sp : BitVec 16
  /-- R48: RAMPX, when present. -/
  rampx : Byte
  /-- R48: RAMPY, when present. -/
  rampy : Byte
  /-- R48: RAMPZ, when present. -/
  rampz : Byte
  /-- R48: RAMPD, when present. -/
  rampd : Byte
  /-- R48: EIND, when present. -/
  eind : Byte
  /-- R88: the internal SRAM, by data address; an unlisted byte reads `Memory.sramByte`. -/
  sram : Memory
  /-- R86, R346: the reference `IoDevice`: the bytes of the I/O and extended I/O registers that are no CPU register, by data
  address; an unlisted byte reads `Memory.ioByte`. -/
  io : Memory
  /-- R54, R91: program memory, by byte address; an unlisted byte reads `Memory.flashByte`. -/
  flash : Memory
  /-- R57: `irq_holdoff`. -/
  irqHoldoff : Bool
  /-- R61: the run state. -/
  run : RunState
  /-- R60, R323: the pending set of the reference `Irq`: the numbers of the sources whose request flag and enable are set. -/
  irqPending : List Nat
  /-- R336: the platform's own state, behind its opaque functions; nothing is known of what it encodes. -/
  platform : Nat
deriving DecidableEq, Repr

/-- R62, R360: the machine right after a power-on reset, for the configuration `c` and the program image `flash`. The spec
gives R0 to R31 no value at reset; they are zero here (DESIGN CHOICE, notes/assumptions/1.md). -/
def State.resetOf (c : Config) (flash : Memory) : State where
  cfg := c
  regs := Vector.replicate 32 0
  pc := BitVec.ofNat 22 (c.resetVector % 2 ^ c.pcBits)
  sreg := 0
  sp := BitVec.ofNat 16 (c.spReset % 2 ^ c.spBits)
  rampx := 0
  rampy := 0
  rampz := 0
  rampd := 0
  eind := 0
  sram := []
  io := []
  flash := flash
  irqHoldoff := false
  run := .running
  irqPending := []
  platform := 0

/-- The machine right after reset in the reference configuration of R7, with the flash erased: a program is loaded from
outside the machine (R346, notes/assumptions/4.md). -/
def State.reset : State := State.resetOf Config.reference []

/-- R8, spec/92 D35: a run starts only from a configuration that the check accepts; any other is refused before the first
step. -/
def State.launch (c : Config) (flash : Memory) : Host.Outcome State Fault Refusal :=
  if c.wf then .next (State.resetOf c flash) else .refused .configuration

end Sys2Proof.Machine
end

