-- ==== Sys2Proof/Machine/Availability.lean ====
section
/-! DEFINITION. Which instruction the configured machine implements (spec/30_encoding.md R138, R140, R146;
spec/10_state.md R63), and the check every meaning makes first. -/

namespace Sys2Proof.Machine

open Sys2Proof

/-- The outcome of an operation that yields a value of `α`. -/
abbrev Result (α : Type) := Host.Outcome α Fault Refusal

/-- The spec's name of an instruction, as R258, R259 and the vectors of spec/95 give it to `NotImplemented`. -/
def mnemonic : Instr → String
  | .nop => "NOP"
  | .movw _ _ => "MOVW"
  | .muls _ _ => "MULS"
  | .mulsu _ _ => "MULSU"
  | .fmul _ _ => "FMUL"
  | .fmuls _ _ => "FMULS"
  | .fmulsu _ _ => "FMULSU"
  | .cpc _ _ => "CPC"
  | .sbc _ _ => "SBC"
  | .add _ _ => "ADD"
  | .cpse _ _ => "CPSE"
  | .cp _ _ => "CP"
  | .sub _ _ => "SUB"
  | .adc _ _ => "ADC"
  | .and _ _ => "AND"
  | .eor _ _ => "EOR"
  | .or _ _ => "OR"
  | .mov _ _ => "MOV"
  | .cpi _ _ => "CPI"
  | .sbci _ _ => "SBCI"
  | .subi _ _ => "SUBI"
  | .ori _ _ => "ORI"
  | .andi _ _ => "ANDI"
  | .lddZ _ _ | .lddY _ _ => "LDD"
  | .stdZ _ _ | .stdY _ _ => "STD"
  | .lds _ _ => "LDS"
  | .ldX _ | .ldXInc _ | .ldXDec _ | .ldYInc _ | .ldYDec _ | .ldZInc _ | .ldZDec _ => "LD"
  | .lpm | .lpmZ _ | .lpmZInc _ => "LPM"
  | .elpm | .elpmZ _ | .elpmZInc _ => "ELPM"
  | .pop _ => "POP"
  | .sts _ _ => "STS"
  | .stX _ | .stXInc _ | .stXDec _ | .stYInc _ | .stYDec _ | .stZInc _ | .stZDec _ => "ST"
  | .xch _ => "XCH"
  | .las _ => "LAS"
  | .lac _ => "LAC"
  | .lat _ => "LAT"
  | .push _ => "PUSH"
  | .com _ => "COM"
  | .neg _ => "NEG"
  | .swap _ => "SWAP"
  | .inc _ => "INC"
  | .asr _ => "ASR"
  | .lsr _ => "LSR"
  | .ror _ => "ROR"
  | .bset _ => "BSET"
  | .bclr _ => "BCLR"
  | .ret => "RET"
  | .reti => "RETI"
  | .sleep => "SLEEP"
  | .brk => "BREAK"
  | .wdr => "WDR"
  | .spm => "SPM"
  | .spmZInc => "SPM Z+"
  | .ijmp => "IJMP"
  | .eijmp => "EIJMP"
  | .icall => "ICALL"
  | .eicall => "EICALL"
  | .dec _ => "DEC"
  | .des _ => "DES"
  | .jmp _ => "JMP"
  | .call _ => "CALL"
  | .adiw _ _ => "ADIW"
  | .sbiw _ _ => "SBIW"
  | .cbi _ _ => "CBI"
  | .sbic _ _ => "SBIC"
  | .sbi _ _ => "SBI"
  | .sbis _ _ => "SBIS"
  | .mul _ _ => "MUL"
  | .inp _ _ => "IN"
  | .out _ _ => "OUT"
  | .rjmp _ => "RJMP"
  | .rcall _ => "RCALL"
  | .ldi _ _ => "LDI"
  | .brbs _ _ => "BRBS"
  | .brbc _ _ => "BRBC"
  | .bld _ _ => "BLD"
  | .bst _ _ => "BST"
  | .sbrc _ _ => "SBRC"
  | .sbrs _ _ => "SBRS"

/-! The core levels that share an instruction (R146). -/

/-- Every core but AVR1. -/
def coreFromAvr2 (c : Config) : Bool := c.core != .avr1

/-- Every core but AVR1 and AVRtiny: 16-bit arithmetic, the two-word LDS and STS. -/
def coreClassic (c : Config) : Bool := c.core != .avr1 && c.core != .avrTiny

/-- AVR2.5 and up without AVR3: MOVW, LPM Rd (R216, R251). -/
def coreClassicPlus (c : Config) : Bool := coreClassic c && c.core != .avr2 && c.core != .avr3

/-- The Enhanced cores and XMEGA: the multiplies (R189). -/
def coreEnhanced (c : Config) : Bool := coreClassicPlus c && c.core != .avr25

/-- AVR5, AVR6 and XMEGA. -/
def coreFromAvr5 (c : Config) : Bool := c.core == .avr5 || c.core == .avr6 || c.isXmega

/-- AVR6 and XMEGA: EIJMP and EICALL (R267). -/
def coreFromAvr6 (c : Config) : Bool := c.coreHasEijmp

/-- R146 and the "NotImplemented" paragraphs of the instruction rules: the core level and the options of the configuration
include the instruction. RCALL, RET and RETI are left out on AVR1, whose hardware stack the spec lacks (R296). -/
def coreImplements (c : Config) : Instr → Bool
  | .add _ _ | .adc _ _ | .sub _ _ | .subi _ _ | .sbc _ _ | .sbci _ _ | .and _ _ | .andi _ _ | .or _ _ | .ori _ _
  | .eor _ _ | .com _ | .neg _ | .inc _ | .dec _ | .cp _ _ | .cpc _ _ | .cpi _ _ | .swap _ | .lsr _ | .ror _ | .asr _
  | .bset _ | .bclr _ | .sbi _ _ | .cbi _ _ | .bst _ _ | .bld _ _ | .nop | .sleep | .wdr | .mov _ _ | .ldi _ _
  | .inp _ _ | .out _ _ | .rjmp _ | .cpse _ _ | .sbrc _ _ | .sbrs _ _ | .sbic _ _ | .sbis _ _ | .brbs _ _
  | .brbc _ _ => true
  | .rcall _ | .ret | .reti | .ijmp | .icall => coreFromAvr2 c
  | .ldX _ | .ldXInc _ | .ldXDec _ | .ldYInc _ | .ldYDec _ | .ldZInc _ | .ldZDec _ => coreFromAvr2 c
  | .stX _ | .stXInc _ | .stXDec _ | .stYInc _ | .stYDec _ | .stZInc _ | .stZDec _ => coreFromAvr2 c
  | .push _ | .pop _ => coreFromAvr2 c
  | .lddZ _ q | .stdZ q _ => coreClassic c || q == 0
  | .lddY _ q | .stdY q _ => coreClassic c || (c.core != .avr1 && q == 0)
  | .lds _ _ | .sts _ _ | .adiw _ _ | .sbiw _ _ => coreClassic c
  | .lpm => c.core != .avrTiny && (c.core != .avr1 || c.avr1HasLpm)
  | .movw _ _ | .lpmZ _ | .lpmZInc _ => coreClassicPlus c
  | .mul _ _ | .muls _ _ | .mulsu _ _ | .fmul _ _ | .fmuls _ _ | .fmulsu _ _ => coreEnhanced c
  | .jmp _ | .call _ => c.coreHasJmp
  | .elpm => c.hasRampZ && (c.core == .avr3 || coreFromAvr5 c)
  | .elpmZ _ | .elpmZInc _ => c.hasRampZ && coreFromAvr5 c
  | .brk => c.hasBreak && (coreFromAvr5 c || c.core == .avrTiny)
  | .eijmp | .eicall => c.hasEind && coreFromAvr6 c
  | .spm => c.hasSpm && coreClassicPlus c
  | .spmZInc => c.hasSpm && c.isXmega
  | .des _ => c.hasDes && c.isXmega
  | .xch _ | .las _ | .lac _ | .lat _ => c.core == .xmegaRmw

/-- The registers that the operands of an instruction name (R11); implicit ones are not among them. -/
def namedRegisters : Instr → List Reg
  | .movw d r | .muls d r | .mulsu d r | .fmul d r | .fmuls d r | .fmulsu d r | .cpc d r | .sbc d r | .add d r
  | .cpse d r | .cp d r | .sub d r | .adc d r | .and d r | .eor d r | .or d r | .mov d r | .mul d r => [d, r]
  | .cpi d _ | .sbci d _ | .subi d _ | .ori d _ | .andi d _ | .ldi d _ => [d]
  | .lddZ d _ | .lddY d _ | .lds d _ | .ldZInc d | .ldZDec d | .lpmZ d | .lpmZInc d | .elpmZ d | .elpmZInc d
  | .ldYInc d | .ldYDec d | .ldX d | .ldXInc d | .ldXDec d | .pop d | .xch d | .las d | .lac d | .lat d => [d]
  | .stdZ _ r | .stdY _ r | .sts _ r | .stZInc r | .stZDec r | .stYInc r | .stYDec r | .stX r | .stXInc r | .stXDec r
  | .push r => [r]
  | .com d | .neg d | .swap d | .inc d | .asr d | .lsr d | .ror d | .dec d => [d]
  | .adiw d _ | .sbiw d _ | .inp d _ | .bld d _ | .bst d _ => [d]
  | .out _ r | .sbrc r _ | .sbrs r _ => [r]
  | .nop | .bset _ | .bclr _ | .ret | .reti | .sleep | .brk | .wdr | .lpm | .elpm | .spm | .spmZInc | .ijmp | .eijmp
  | .icall | .eicall | .des _ | .jmp _ | .call _ | .cbi _ _ | .sbic _ _ | .sbi _ _ | .sbis _ _ | .rjmp _ | .rcall _
  | .brbs _ _ | .brbc _ _ => []

/-- R63: the AVRtiny core omits R0 to R15. The core decides, not the data map (notes/assumptions/27.md). -/
def hasRegister (c : Config) (r : Reg) : Bool := c.core != .avrTiny || decide (16 ≤ r.toNat)

/-- The configured machine implements the instruction: its core, its options and its register set (R321, `NotImplemented`). -/
def implements (c : Config) (i : Instr) : Bool :=
  coreImplements c i && (namedRegisters i).all (hasRegister c)

/-- R138, R146: an instruction that the configured machine lacks raises `NotImplemented`; any other goes on with `k`. -/
def requires (i : Instr) (s : State) (k : Result State) : Result State :=
  if implements s.cfg i then k else .fault (.notImplemented (mnemonic i))

/-- R229, R256: the operand check of the updating modes: a data register that is one of the two registers of the pointer
(whose low register is `lo`) has no defined result and raises `UndefinedOperandCombination`. -/
def requiresDisjoint (i : Instr) (r lo : Reg) (k : Result State) : Result State :=
  if r = lo ∨ r = lo + 1 then .fault (.undefinedOperandCombination (firstWord i)) else k

end Sys2Proof.Machine
end

