-- ==== Sys2Proof/Machine/Flags.lean ====
section
/-! DEFINITION. SREG and every flag computation of the spec (spec/10_state.md R36 to R45, spec/40_arithmetic.md R160 to
R163 and the flag paragraphs of R166 to R195). A flag function takes the old SREG and gives the new one; the bits it does
not name are kept. -/

namespace Sys2Proof.Machine

open Sys2Proof

/-- R36: the eight flags of SREG. -/
inductive Flag where
  | C | Z | N | V | S | H | T | I
deriving DecidableEq, Repr

/-- R36: the bit number of a flag in SREG. -/
def Flag.bit : Flag → Nat
  | .C => 0
  | .Z => 1
  | .N => 2
  | .V => 3
  | .S => 4
  | .H => 5
  | .T => 6
  | .I => 7

/-- Bit `i` of a byte set to `b`, the other bits kept. -/
def putBit (v : Byte) (i : Nat) (b : Bool) : Byte :=
  if b then v ||| (1#8 <<< i) else v &&& ~~~(1#8 <<< i)

/-- The value of a flag. -/
def getFlag (sreg : Byte) (f : Flag) : Bool := sreg.getLsbD f.bit

/-- SREG with one flag written. -/
def putFlag (sreg : Byte) (f : Flag) (b : Bool) : Byte := putBit sreg f.bit b

/-- Z and C written, the other flags kept: the MUL family (R45). -/
def putZC (sreg : Byte) (z c : Bool) : Byte := putFlag (putFlag sreg .Z z) .C c

/-- V, N, Z written and S <- N ^ V of the new values (R41). -/
def putSVNZ (sreg : Byte) (v n z : Bool) : Byte :=
  putFlag (putFlag (putFlag (putFlag sreg .S (n ^^ v)) .V v) .N n) .Z z

/-- V, N, Z, C written and S <- N ^ V (R41). -/
def putSVNZC (sreg : Byte) (v n z c : Bool) : Byte := putFlag (putSVNZ sreg v n z) .C c

/-- H, V, N, Z, C written and S <- N ^ V (R41). -/
def putHSVNZC (sreg : Byte) (h v n z c : Bool) : Byte := putFlag (putSVNZC sreg v n z c) .H h

/-- The 8-bit sum `(a + b + c) mod 256` (R160). -/
def addResult (a b : Byte) (c : Bool) : Byte := BitVec.ofNat 8 (a.toNat + b.toNat + c.toNat)

/-- The 8-bit difference `(a - b - c) mod 256` (R161). -/
def subResult (a b : Byte) (c : Bool) : Byte := BitVec.ofInt 8 ((a.toNat : Int) - b.toNat - c.toNat)

/-- The integer does not fit the signed 8-bit range (R160, R161: "outside -128..127"). -/
def overflows8 (t : Int) : Bool := decide (t < -128) || decide (127 < t)

/-- R160 `AddFlags(a, b, c)`. -/
def addFlags (sreg a b : Byte) (c : Bool) : Byte :=
  putHSVNZC sreg
    (decide (15 < a.toNat % 16 + b.toNat % 16 + c.toNat))
    (overflows8 (a.toInt + b.toInt + c.toNat))
    (addResult a b c).msb
    (addResult a b c == 0)
    (decide (255 < a.toNat + b.toNat + c.toNat))

/-- R161 `SubFlags(a, b, c, keepZ)`. -/
def subFlags (sreg a b : Byte) (c keepZ : Bool) : Byte :=
  putHSVNZC sreg
    (decide (a.toNat % 16 < b.toNat % 16 + c.toNat))
    (overflows8 (a.toInt - b.toInt - c.toNat))
    (subResult a b c).msb
    (subResult a b c == 0 && (!keepZ || getFlag sreg .Z))
    (decide (a.toNat < b.toNat + c.toNat))

/-- R162 `LogicFlags(R)`. -/
def logicFlags (sreg r : Byte) : Byte := putSVNZ sreg false r.msb (r == 0)

/-- R163 `ShiftRightFlags(a, R)`: C the bit shifted out, V <- N ^ C. -/
def shiftRightFlags (sreg a r : Byte) : Byte :=
  putSVNZC sreg (r.msb ^^ a.getLsbD 0) r.msb (r == 0) (a.getLsbD 0)

/-- The flags of ADIW for the old pair `a` and the result `w` (R166). -/
def adiwFlags (sreg : Byte) (a w : Word) : Byte :=
  putSVNZC sreg (!a.msb && w.msb) w.msb (w == 0) (!w.msb && a.msb)

/-- The flags of SBIW (R171). -/
def sbiwFlags (sreg : Byte) (a w : Word) : Byte :=
  putSVNZC sreg (a.msb && !w.msb) w.msb (w == 0) (w.msb && !a.msb)

/-- The flags of INC for the result `r` (R172). -/
def incFlags (sreg r : Byte) : Byte := putSVNZ sreg (r == 0x80) r.msb (r == 0)

/-- The flags of DEC for the result `r` (R173). -/
def decFlags (sreg r : Byte) : Byte := putSVNZ sreg (r == 0x7F) r.msb (r == 0)

/-- The flags of MUL, MULS, MULSU for the product `p` (R189 to R191): C <- p[15], Z <- (p = 0). -/
def mulFlags (sreg : Byte) (p : Word) : Byte := putZC sreg (p == 0) p.msb

/-- The flags of FMUL, FMULS, FMULSU (R193 to R195): C <- p[15], the bit shifted out; Z of the shifted result. -/
def fmulFlags (sreg : Byte) (p : Word) : Byte := putZC sreg (p <<< 1 == 0) p.msb

end Sys2Proof.Machine
end

