-- ==== Sys2Proof/Machine/Memory.lean ====
section
/-! DEFINITION. Byte memories in canonical form: reading, writing, and what an unlisted address reads as. -/

namespace Sys2Proof.Machine

open Sys2Proof

/-- What a byte of SRAM that nothing has written reads as: R62 leaves it unspecified (DESIGN CHOICE,
notes/assumptions/2.md). -/
def Memory.sramByte : Byte := 0

/-- What a byte of the reference `IoDevice` that nothing has written reads as: R62 leaves it to `IoDevice` (DESIGN CHOICE,
notes/assumptions/3.md). -/
def Memory.ioByte : Byte := 0

/-- What a byte of program memory that no image gives reads as: unprogrammed words read 0xFFFF (R62, R346). -/
def Memory.flashByte : Byte := 0xFF

/-- The byte at address `a`; `dflt` is what an unlisted address reads as. -/
def Memory.read (dflt : Byte) : Memory → Nat → Byte
  | [], _ => dflt
  | (k, v) :: m, a => if a = k then v else Memory.read dflt m a

/-- Writing `v` at `a`; an address that gets the byte `dflt` is listed no more, so that equal memories are equal lists. -/
def Memory.write (dflt : Byte) : Memory → Nat → Byte → Memory
  | [], a, v => if v = dflt then [] else [(a, v)]
  | (k, w) :: m, a, v =>
    if a < k then (if v = dflt then (k, w) :: m else (a, v) :: (k, w) :: m)
    else if a = k then (if v = dflt then m else (a, v) :: m)
    else (k, w) :: Memory.write dflt m a v

/-- A list of writes, the first one first. -/
def Memory.writeAll (dflt : Byte) (m : Memory) (ws : List Host.Cell) : Memory :=
  ws.foldl (fun m c => Memory.write dflt m c.1 c.2) m

/-- The canonical form: addresses strictly rising, and no entry equal to what an unlisted address reads as. -/
abbrev Memory.wf (dflt : Byte) (m : Memory) : Prop :=
  m.Pairwise (fun x y => x.1 < y.1) ∧ ∀ c ∈ m, c.2 ≠ dflt

end Sys2Proof.Machine
end

