-- ==== Sys2Proof/Machine/Ops.lean ====
section
/-! DEFINITION. The named operations over registers, the I/O space, the data space, the stack and program memory
(spec/10_state.md R46 to R49, spec/20_memory.md R80 to R110), the taking of an interrupt and the return from one
(spec/60_exceptions.md R322 to R334). -/

namespace Sys2Proof.Machine

open Sys2Proof

/-- Sequencing: a fault or a refusal of the first operation is that of the whole (R321: it abandons the step). -/
def andThen {α β : Type} (x : Result α) (f : α → Result β) : Result β :=
  match x with
  | .next a => f a
  | .fault e => .fault e
  | .refused e => .refused e

/-! ## General registers (R30, R31) -/

/-- R[r]. -/
def State.reg (s : State) (r : Reg) : Byte := s.regs[r.toNat]'r.isLt

/-- R[r] <- v. -/
def State.setReg (s : State) (r : Reg) (v : Byte) : State := { s with regs := s.regs.set r.toNat v r.isLt }

/-- The pair R[r+1]:R[r] (R31). -/
def State.pair (s : State) (r : Reg) : Word := s.reg (r + 1) ++ s.reg r

/-- R[r+1]:R[r] <- w (R31). -/
def State.setPair (s : State) (r : Reg) (w : Word) : State :=
  (s.setReg r (w.extractLsb' 0 8)).setReg (r + 1) (w.extractLsb' 8 8)

/-! ## Program counter, status register, stack pointer, segment registers -/

/-- `pc <- target mod 2^PC_BITS` (R10, R35). -/
def State.setPc (s : State) (target : Nat) : State :=
  { s with pc := BitVec.ofNat 22 (target % 2 ^ s.cfg.pcBits) }

/-- `pc <- next(pc, n)` (R35). -/
def State.advance (s : State) (n : Nat) : State := s.setPc (s.pc.toNat + n)

/-- The word address n words after pc, modulo 2^PC_BITS (R10). -/
def State.nextPc (s : State) (n : Nat) : Nat := (s.pc.toNat + n) % 2 ^ s.cfg.pcBits

/-- The target `(pc + 1 + k) mod 2^PC_BITS` of a relative transfer (R35, R131). -/
def State.relative (s : State) (k : Int) : Nat :=
  (((s.pc.toNat : Int) + 1 + k) % ((2 ^ s.cfg.pcBits : Nat) : Int)).toNat

/-- The whole of SREG replaced, with no further effect. -/
def State.setSreg (s : State) (v : Byte) : State := { s with sreg := v }

/-- The flags of SREG. -/
def State.flag (s : State) (f : Flag) : Bool := getFlag s.sreg f

/-- A write that may set I: SREG <- v, and `irq_holdoff <- 1` when I goes from 0 to 1 (R57, R87, R326). -/
def State.writeSreg (s : State) (v : Byte) : State :=
  { s with sreg := v, irqHoldoff := s.irqHoldoff || (getFlag v .I && !getFlag s.sreg .I) }

/-- `SP <- v mod 2^SP_BITS` (R46, R93). -/
def State.setSp (s : State) (v : Nat) : State := { s with sp := BitVec.ofNat 16 (v % 2 ^ s.cfg.spBits) }

/-- The low `n` bits of a segment register's byte (R48, spec/92 D26). -/
def maskBits (n : Nat) (v : Byte) : Byte := BitVec.ofNat 8 (v.toNat % 2 ^ n)

/-- RAMPX <- v. -/
def State.setRampx (s : State) (v : Byte) : State := { s with rampx := maskBits s.cfg.rampBits v }
/-- RAMPY <- v. -/
def State.setRampy (s : State) (v : Byte) : State := { s with rampy := maskBits s.cfg.rampBits v }
/-- RAMPZ <- v. -/
def State.setRampz (s : State) (v : Byte) : State := { s with rampz := maskBits s.cfg.rampBits v }
/-- RAMPD <- v. -/
def State.setRampd (s : State) (v : Byte) : State := { s with rampd := maskBits s.cfg.rampBits v }
/-- EIND <- v. -/
def State.setEind (s : State) (v : Byte) : State := { s with eind := maskBits s.cfg.eindBits v }

/-- The device state of the platform replaced. -/
def State.setPlatform (s : State) (p : Nat) : State := { s with platform := p }
/-- The SRAM replaced. -/
def State.setSram (s : State) (m : Memory) : State := { s with sram := m }
/-- The storage of the reference `IoDevice` replaced. -/
def State.setIo (s : State) (m : Memory) : State := { s with io := m }
/-- The program memory replaced. -/
def State.setFlash (s : State) (m : Memory) : State := { s with flash := m }
/-- `irq_holdoff <- b` (R57). -/
def State.setHoldoff (s : State) (b : Bool) : State := { s with irqHoldoff := b }
/-- The run state replaced (R61). -/
def State.setRun (s : State) (r : RunState) : State := { s with run := r }
/-- The pending set of the reference `Irq` replaced (R323). -/
def State.setPending (s : State) (p : List Nat) : State := { s with irqPending := p }

/-! ## The I/O space (R47, R49, R86, R87) -/

/-- R46: the core has a stack pointer; AVR1 has a hardware stack in its place. -/
def hasSp (c : Config) : Bool := c.core != .avr1

/-- R47, R49: the byte of the CPU register at an I/O address; none where no CPU register is present. -/
def cpuRead (s : State) (a : BitVec 6) : Option Byte :=
  if a = 0x3F then some s.sreg
  else if a = 0x3E then (if hasSp s.cfg && s.cfg.spBits == 16 then some (s.sp.extractLsb' 8 8) else none)
  else if a = 0x3D then (if hasSp s.cfg then some (s.sp.extractLsb' 0 8) else none)
  else if a = 0x3C then (if s.cfg.hasEind then some s.eind else none)
  else if a = 0x3B then (if s.cfg.hasRampZ then some s.rampz else none)
  else if a = 0x3A then (if s.cfg.hasRampY then some s.rampy else none)
  else if a = 0x39 then (if s.cfg.hasRampX then some s.rampx else none)
  else if a = 0x38 then (if s.cfg.hasRampD then some s.rampd else none)
  else none

/-- R49: `SP[7:0] <- v`; on XMEGA the write also holds interrupts for one instruction (R58). -/
def State.writeSpl (s : State) (v : Byte) : State :=
  (s.setSp ((s.sp.extractLsb' 8 8 ++ v).toNat)).setHoldoff (s.irqHoldoff || s.cfg.isXmega)

/-- R49: `SP[15:8] <- v`. -/
def State.writeSph (s : State) (v : Byte) : State := s.setSp ((v ++ s.sp.extractLsb' 0 8).toNat)

/-- R47, R49: the write of the CPU register at an I/O address; none where no CPU register is present. -/
def cpuWrite (s : State) (a : BitVec 6) (v : Byte) : Option State :=
  if a = 0x3F then some (s.writeSreg v)
  else if a = 0x3E then (if hasSp s.cfg && s.cfg.spBits == 16 then some (s.writeSph v) else none)
  else if a = 0x3D then (if hasSp s.cfg then some (s.writeSpl v) else none)
  else if a = 0x3C then (if s.cfg.hasEind then some (s.setEind v) else none)
  else if a = 0x3B then (if s.cfg.hasRampZ then some (s.setRampz v) else none)
  else if a = 0x3A then (if s.cfg.hasRampY then some (s.setRampy v) else none)
  else if a = 0x39 then (if s.cfg.hasRampX then some (s.setRampx v) else none)
  else if a = 0x38 then (if s.cfg.hasRampD then some (s.setRampd v) else none)
  else none

/-- `IoDevice.read(a)`, `a` a data address (R86, R100, R346): plain storage, or the platform's answer. -/
def deviceRead (a : Nat) (s : State) : Byte × State :=
  match s.cfg.ioDevice with
  | .reference => (Memory.read Memory.ioByte s.io a, s)
  | .platform => ((Config.deviceRead s.platform a).1, s.setPlatform (Config.deviceRead s.platform a).2)

/-- `IoDevice.write(a, v)` (R87, R346). -/
def deviceWrite (a : Nat) (v : Byte) (s : State) : State :=
  match s.cfg.ioDevice with
  | .reference => s.setIo (Memory.write Memory.ioByte s.io a v)
  | .platform => s.setPlatform (Config.deviceWrite s.platform a v)

/-- `IoDevice.wdr()` (R209): the reference device has no watchdog. -/
def deviceWdr (s : State) : State :=
  match s.cfg.ioDevice with
  | .reference => s
  | .platform => s.setPlatform (Config.deviceWdr s.platform)

/-- The data address of I/O address 0: 0x20 where the register file is mapped below it (R83), else 0 (R82). -/
def ioBase (c : Config) : Nat :=
  match c.memoryMap with
  | .atmega => 0x20
  | .avr1 => 0x20
  | .xmega => 0
  | .avrTiny => 0

/-- R86 `IoRead(a)`: the byte, and the state after the read. -/
def ioRead (a : BitVec 6) (s : State) : Byte × State :=
  match cpuRead s a with
  | some v => (v, s)
  | none => deviceRead (a.toNat + ioBase s.cfg) s

/-- R87 `IoWrite(a, v)`. -/
def ioWrite (a : BitVec 6) (v : Byte) (s : State) : State :=
  match cpuWrite s a v with
  | some t => t
  | none => deviceWrite (a.toNat + ioBase s.cfg) v s

/-! ## The data space (R80 to R89) -/

/-- What a data address maps to. -/
inductive Place where
  /-- A general register (R81). -/
  | register (r : Reg)
  /-- An I/O register, by its I/O address (R83). -/
  | io (a : BitVec 6)
  /-- A byte of `IoDevice` outside the I/O space: extended I/O (R52); on XMEGA also the data flash window (R56, R82;
  notes/assumptions/10.md). -/
  | device
  /-- Internal SRAM (R88). -/
  | sram
  /-- Nothing (R89). -/
  | nothing
deriving DecidableEq, Repr

/-- SRAM from `RAMSTART` to `RAMEND`, nothing elsewhere. -/
def sramPlace (c : Config) (a : Nat) : Place :=
  if c.ramStart ≤ a ∧ a ≤ c.ramEnd then .sram else .nothing

/-- The data-space map (R80, R82, R84): what data address `a` is. DESIGN CHOICE (notes/assumptions/27.md): where `CORE` and
`MEMORY_MAP` disagree, `MEMORY_MAP` decides whether the register file is mapped (R49), although R63 speaks of the core. -/
def place (c : Config) (a : Nat) : Place :=
  match c.memoryMap with
  | .atmega =>
    if a ≤ 0x1F then .register (BitVec.ofNat 5 a)
    else if a ≤ 0x5F then .io (BitVec.ofNat 6 (a - 0x20))
    else if a ≤ 0xFF ∧ c.hasExtIo = true then .device
    else sramPlace c a
  | .xmega =>
    if a ≤ 0x3F then .io (BitVec.ofNat 6 a)
    else if a ≤ 0x1FFF then .device
    else sramPlace c a
  | .avrTiny => if a ≤ 0x3F then .io (BitVec.ofNat 6 a) else sramPlace c a
  | .avr1 =>
    if a ≤ 0x1F then .register (BitVec.ofNat 5 a)
    else if a ≤ 0x5F then .io (BitVec.ofNat 6 (a - 0x20))
    else .nothing

/-- R84 `MemRead(a, 1)`: the byte, and the state after the read. -/
def memRead (a : Nat) (s : State) : Result (Byte × State) :=
  match place s.cfg a with
  | .register r => .next (s.reg r, s)
  | .io p => .next (ioRead p s)
  | .device => .next (deviceRead a s)
  | .sram => .next (Memory.read Memory.sramByte s.sram a, s)
  | .nothing => .fault (.dataOutOfRange a)

/-- R85 `MemWrite(a, 1, v)`. -/
def memWrite (a : Nat) (v : Byte) (s : State) : Result State :=
  match place s.cfg a with
  | .register r => .next (s.setReg r v)
  | .io p => .next (ioWrite p v s)
  | .device => .next (deviceWrite a v s)
  | .sram => .next (s.setSram (Memory.write Memory.sramByte s.sram a v))
  | .nothing => .fault (.dataOutOfRange a)

/-! ## The stack (R93 to R95) -/

/-- `SP - 1` before its reduction modulo 2^SP_BITS (R93). -/
def spBelow (s : State) : Nat := s.sp.toNat + (2 ^ s.cfg.spBits - 1)

/-- R93 `Push(v)`: the byte at SP, then SP one lower, computed from the SP before the write. -/
def push (v : Byte) (s : State) : Result State :=
  andThen (memWrite s.sp.toNat v s) fun t => .next (t.setSp (spBelow s))

/-- R94 `Pop()`: SP one higher, then the byte at the new SP. -/
def pop (s : State) : Result (Byte × State) :=
  let t := s.setSp (s.sp.toNat + 1)
  memRead t.sp.toNat t

/-- R95 `PushPC(r)`: low byte, high byte, and with a 22-bit PC the byte of bits 21:16. -/
def pushPc (r : BitVec 22) (s : State) : Result State :=
  andThen (push (r.extractLsb' 0 8) s) fun s1 =>
  andThen (push (r.extractLsb' 8 8) s1) fun s2 =>
  if s.cfg.pcBits = 22 then push ((r.extractLsb' 16 6).setWidth 8) s2 else .next s2

/-- The byte of bits 21:16 popped first with a 22-bit PC, else 0 (R95). -/
def popPcTop (s : State) : Result (Byte × State) := if s.cfg.pcBits = 22 then pop s else .next (0, s)

/-- R95 `PopPC()`, the popped bytes as a number: its bits above `PC_BITS - 1` are dropped where it is written to the PC. -/
def popPc (s : State) : Result (Nat × State) :=
  andThen (popPcTop s) fun x2 =>
  andThen (pop x2.2) fun x1 =>
  andThen (pop x1.2) fun x0 =>
  .next ((x2.1 ++ (x1.1 ++ x0.1)).toNat, x0.2)

/-! ## Program memory (R90, R91) -/

/-- The byte of program memory at byte address `b`, whatever `FLASH_WORDS` is. -/
def State.flashAt (s : State) (b : Nat) : Byte := Memory.read Memory.flashByte s.flash b

/-- R90 `ProgWord(w)`; its low byte lies at the even byte address (R91). -/
def progWord (w : Nat) (s : State) : Result Word :=
  if w < s.cfg.flashWords then .next (wordOfBytes (s.flashAt (2 * w)) (s.flashAt (2 * w + 1)))
  else .fault (.fetchOutOfRange w)

/-- R91 `ProgByte(b)`. -/
def progByte (b : Nat) (s : State) : Result Byte :=
  if b / 2 < s.cfg.flashWords then .next (s.flashAt b) else .fault (.progReadOutOfRange b)

/-! ## Interrupts (R322 to R334) -/

/-- R323 `Irq.pending()`: the vector numbers whose request and enable are set; a source is numbered 1 to NUM_VECTORS - 1
(R322). -/
def pendingVectors (s : State) : List Nat :=
  (match s.cfg.irq with
    | .reference => s.irqPending
    | .platform => Config.irqPending s.platform).filter fun n => decide (1 ≤ n) && decide (n < s.cfg.numVectors)

/-- R325: the lowest vector number pending. -/
def lowestPending (s : State) : Option Nat := (pendingVectors s).min?

/-- R327 `VectorAddr(n)`. -/
def vectorAddress (s : State) (n : Nat) : Nat :=
  match s.cfg.vectorAddr with
  | .reference => s.cfg.resetVector + n * s.cfg.vectorStride
  | .platform => Config.platformVector s.platform n

/-- R323, R328 `Irq.acknowledge(n)`: clears the request of a source that clears on entry. -/
def acknowledge (n : Nat) (s : State) : State :=
  match s.cfg.irq with
  | .reference => if s.cfg.irqClearOnEntry.contains n then s.setPending (s.irqPending.filter (· != n)) else s
  | .platform => s.setPlatform (Config.irqAcknowledge s.platform n)

/-- R334 `Irq.reti()` of the XMEGA interrupt controller; the reference `Irq` has no levels. -/
def irqReti (s : State) : State :=
  match s.cfg.irq with
  | .reference => s
  | .platform => s.setPlatform (Config.irqReti s.platform)

/-- R328: `I <- 0`, on every core except XMEGA. -/
def clearIOnEntry (s : State) : State := if s.cfg.isXmega then s else s.setSreg (putFlag s.sreg .I false)

/-- R328 `TakeInterrupt(n)`: the PC pushed as by a call, I cleared, the source acknowledged, the core awake, the PC at the
vector. On AVR1 the return address belongs to a hardware stack the spec lacks (R296). -/
def takeInterrupt (n : Nat) (s : State) : Result State :=
  if s.cfg.core = .avr1 then .fault (.notImplemented "interrupt entry")
  else andThen (pushPc s.pc s) fun t =>
    let u := (acknowledge n (clearIOnEntry t)).setRun .running
    .next (u.setPc (vectorAddress u n))

/-- R295, R330, R334: what RETI does beside popping the PC: I set on every core except XMEGA, where the interrupt controller
is told instead; the hold-off set on all. -/
def finishReti (s : State) : State :=
  let t := if s.cfg.isXmega then irqReti s else s.setSreg (putFlag s.sreg .I true)
  t.setHoldoff true

/-- R295: the return from interrupt. -/
def returnFromInterrupt (s : State) : Result State :=
  andThen (popPc s) fun x => .next (finishReti (x.2.setPc x.1))

/-! ## Reset (R360) -/

/-- R360 `Reset` of a machine that has run: what a platform does to the core at a boundary. It keeps R0 to R31, SRAM and
program memory, which a program must not rely on; devices and interrupt sources take their own reset. No step performs it. -/
def State.afterReset (s : State) : State :=
  { State.resetOf s.cfg s.flash with
    regs := s.regs
    sram := s.sram
    platform := Config.deviceReset s.platform }

end Sys2Proof.Machine
end

