-- ==== Sys2Proof/Machine/Operands.lean ====
section
/-! DEFINITION. The operand forms: pointers, data addresses and their updates (spec/20_memory.md R92, spec/42 R223, R230),
program-memory addresses (spec/43 R257), the skip (spec/45 R275), and the loads and stores of every addressing mode. -/

namespace Sys2Proof.Machine

open Sys2Proof

/-! ## Pointers (R32, R92) -/

/-- The pointer registers. -/
inductive Ptr where
  | x | y | z
deriving DecidableEq, Repr

/-- R32: the low register of a pointer: X = R27:R26, Y = R29:R28, Z = R31:R30. -/
def Ptr.lo : Ptr → Reg
  | .x => 26
  | .y => 28
  | .z => 30

/-- R92, R223: the RAMP register takes part in data addressing through the pointer. -/
def Ptr.extended (c : Config) : Ptr → Bool
  | .x => c.hasRampX
  | .y => c.hasRampY
  | .z => c.hasRampZ && c.rampzForData

/-- The RAMP register of a pointer. -/
def Ptr.ramp (s : State) : Ptr → Byte
  | .x => s.rampx
  | .y => s.rampy
  | .z => s.rampz

/-- RAMPP <- v. -/
def Ptr.setRamp (s : State) (v : Byte) : Ptr → State
  | .x => s.setRampx v
  | .y => s.setRampy v
  | .z => s.setRampz v

/-- The modulus of the address arithmetic through a pointer: 2^24 with the RAMP register, else 2^16 (R92). -/
def Ptr.modulus (c : Config) (p : Ptr) : Nat := if p.extended c then 0x1000000 else 0x10000

/-- R92 `DataAddr(P)`. -/
def dataAddr (p : Ptr) (s : State) : Nat :=
  if p.extended s.cfg then (p.ramp s ++ s.pair p.lo).toNat else (s.pair p.lo).toNat

/-- R92 `DataAddr(D16)`. -/
def directAddr (k : Word) (s : State) : Nat :=
  if s.cfg.hasRampD then (s.rampd ++ k).toNat else k.toNat

/-- The address of the displacement mode, `DataAddr(P) + q` (R223). -/
def dispAddr (p : Ptr) (q : BitVec 6) (s : State) : Nat := (dataAddr p s + q.toNat) % p.modulus s.cfg

/-- The pointer one further, `DataAddr(P) + 1` (R226). -/
def incAddr (p : Ptr) (s : State) : Nat := (dataAddr p s + 1) % p.modulus s.cfg

/-- The address of the pre-decrement mode, `DataAddr(P) - 1` (R227). -/
def decAddr (p : Ptr) (s : State) : Nat := (dataAddr p s + (p.modulus s.cfg - 1)) % p.modulus s.cfg

/-- The pointer written back: `P <- a[15:0]`, and `RAMPP <- a[23:16]` with the RAMP register present (R226, R227, R233). -/
def setPtr (p : Ptr) (a : Nat) (s : State) : State :=
  let t := s.setPair p.lo (BitVec.ofNat 16 a)
  if p.extended s.cfg then p.setRamp t (BitVec.ofNat 8 (a / 0x10000)) else t

/-! ## Loads and stores of the data space (R223 to R235) -/

/-- `R[d] <- MemRead(a)`, then the pointer or nothing written back by `after`, then the PC (R230 items 3, 4). -/
def loadFrom (a : Nat) (d : Reg) (after : State → State) (len : Nat) (s : State) : Result State :=
  andThen (memRead a s) fun x => .next ((after (x.2.setReg d x.1)).advance len)

/-- `MemWrite(a, v)`, then the pointer or nothing written back by `after`, then the PC (R230 item 3). -/
def storeTo (a : Nat) (v : Byte) (after : State → State) (len : Nat) (s : State) : Result State :=
  andThen (memWrite a v s) fun t => .next ((after t).advance len)

/-- R226: load with post-increment. -/
def loadInc (p : Ptr) (d : Reg) (s : State) : Result State := loadFrom (dataAddr p s) d (setPtr p (incAddr p s)) 1 s

/-- R227: load with pre-decrement. -/
def loadDec (p : Ptr) (d : Reg) (s : State) : Result State := loadFrom (decAddr p s) d (setPtr p (decAddr p s)) 1 s

/-- R228: load with displacement. -/
def loadDisp (p : Ptr) (q : BitVec 6) (d : Reg) (s : State) : Result State := loadFrom (dispAddr p q s) d id 1 s

/-- R233: store with post-increment. -/
def storeInc (p : Ptr) (r : Reg) (s : State) : Result State :=
  storeTo (dataAddr p s) (s.reg r) (setPtr p (incAddr p s)) 1 s

/-- R234: store with pre-decrement. -/
def storeDec (p : Ptr) (r : Reg) (s : State) : Result State :=
  storeTo (decAddr p s) (s.reg r) (setPtr p (decAddr p s)) 1 s

/-- R235: store with displacement. -/
def storeDisp (p : Ptr) (q : BitVec 6) (r : Reg) (s : State) : Result State :=
  storeTo (dispAddr p q s) (s.reg r) id 1 s

/-- R305 to R308: the byte at `DataAddr(Z)` read, `f old R[d]` written there, the old byte in Rd. -/
def readModifyWrite (f : Byte → Byte → Byte) (d : Reg) (s : State) : Result State :=
  andThen (memRead (dataAddr .z s) s) fun x =>
  andThen (memWrite (dataAddr .z s) (f x.1 (s.reg d)) x.2) fun t =>
  .next ((t.setReg d x.1).advance 1)

/-! ## Program-memory addresses (R48, R257) -/

/-- `zext(Z)`: the byte address of LPM, the word address of IJMP and ICALL. -/
def zAddr (s : State) : Nat := (s.pair 30).toNat

/-- RAMPZ, which reads as 0 when absent (R48). -/
def rampzOrZero (s : State) : Byte := if s.cfg.hasRampZ then s.rampz else 0

/-- EIND, which reads as 0 when absent (R48). -/
def eindOrZero (s : State) : Byte := if s.cfg.hasEind then s.eind else 0

/-- `RAMPZ : Z`: the byte address of ELPM and SPM. -/
def rampzZ (s : State) : BitVec 24 := rampzOrZero s ++ s.pair 30

/-- `EIND : Z`: the word address of EIJMP and EICALL. -/
def eindZ (s : State) : Nat := (eindOrZero s ++ s.pair 30).toNat

/-- `R[d] <- ProgByte(b)`, then Z written back or not by `after`, then the PC (R250 to R255). -/
def loadProgram (b : Nat) (d : Reg) (after : State → State) (s : State) : Result State :=
  andThen (progByte b s) fun v => .next ((after (s.setReg d v)).advance 1)

/-! ## Skips (R275) -/

/-- R275 `Skip(cond)`: past the whole next instruction, whose length its first word tells; `s` is the state after the
test. -/
def skipIf (cond : Bool) (s : State) : Result State :=
  if cond then andThen (progWord (s.nextPc 1) s) fun w => .next (s.advance (1 + wordLength w)) else .next (s.advance 1)

/-! ## Calls (R290 to R293) -/

/-- `PushPC(next(pc, len)); pc <- target`: the target is formed from the state before the pushes (R291). -/
def callTo (target len : Nat) (s : State) : Result State :=
  andThen (pushPc (BitVec.ofNat 22 (s.nextPc len)) s) fun t => .next (t.setPc target)

end Sys2Proof.Machine
end

