-- ==== Sys2Proof/Machine/Arithmetic.lean ====
section
/-! DEFINITION. Arithmetic and logic instructions (spec/40_arithmetic.md R164 to R195): one meaning per instruction. -/

namespace Sys2Proof.Machine

open Sys2Proof

/-- The end of a register operation: the result in Rd, the flags, `pc <- next(pc, 1)`. -/
def finishAlu (d : Reg) (v sreg : Byte) (s : State) : State := ((s.setReg d v).setSreg sreg).advance 1

/-- The end of a comparison: the flags, `pc <- next(pc, 1)`, no register. -/
def finishCompare (sreg : Byte) (s : State) : State := (s.setSreg sreg).advance 1

/-- The end of a multiplication: the product in R1:R0 (R33), the flags, the PC. -/
def finishMul (w : Word) (sreg : Byte) (s : State) : State := ((s.setPair 0 w).setSreg sreg).advance 1

/-- R164. -/
def execAdd (d r : Reg) (s : State) : Result State :=
  requires (.add d r) s <|
    .next (finishAlu d (addResult (s.reg d) (s.reg r) false) (addFlags s.sreg (s.reg d) (s.reg r) false) s)

/-- R165. -/
def execAdc (d r : Reg) (s : State) : Result State :=
  requires (.adc d r) s <|
    .next (finishAlu d (addResult (s.reg d) (s.reg r) (s.flag .C)) (addFlags s.sreg (s.reg d) (s.reg r) (s.flag .C)) s)

/-- R166. -/
def execAdiw (d : Reg) (k : BitVec 6) (s : State) : Result State :=
  requires (.adiw d k) s <|
    let w := s.pair d + k.setWidth 16
    .next (((s.setPair d w).setSreg (adiwFlags s.sreg (s.pair d) w)).advance 1)

/-- R167. -/
def execSub (d r : Reg) (s : State) : Result State :=
  requires (.sub d r) s <|
    .next (finishAlu d (subResult (s.reg d) (s.reg r) false) (subFlags s.sreg (s.reg d) (s.reg r) false false) s)

/-- R168. -/
def execSubi (d : Reg) (k : Byte) (s : State) : Result State :=
  requires (.subi d k) s <|
    .next (finishAlu d (subResult (s.reg d) k false) (subFlags s.sreg (s.reg d) k false false) s)

/-- R169. -/
def execSbc (d r : Reg) (s : State) : Result State :=
  requires (.sbc d r) s <|
    .next (finishAlu d (subResult (s.reg d) (s.reg r) (s.flag .C))
      (subFlags s.sreg (s.reg d) (s.reg r) (s.flag .C) true) s)

/-- R170. -/
def execSbci (d : Reg) (k : Byte) (s : State) : Result State :=
  requires (.sbci d k) s <|
    .next (finishAlu d (subResult (s.reg d) k (s.flag .C)) (subFlags s.sreg (s.reg d) k (s.flag .C) true) s)

/-- R171. -/
def execSbiw (d : Reg) (k : BitVec 6) (s : State) : Result State :=
  requires (.sbiw d k) s <|
    let w := s.pair d - k.setWidth 16
    .next (((s.setPair d w).setSreg (sbiwFlags s.sreg (s.pair d) w)).advance 1)

/-- R172: C and H are kept. -/
def execInc (d : Reg) (s : State) : Result State :=
  requires (.inc d) s <| .next (finishAlu d (s.reg d + 1) (incFlags s.sreg (s.reg d + 1)) s)

/-- R173: C and H are kept. -/
def execDec (d : Reg) (s : State) : Result State :=
  requires (.dec d) s <| .next (finishAlu d (s.reg d - 1) (decFlags s.sreg (s.reg d - 1)) s)

/-- R174. -/
def execAnd (d r : Reg) (s : State) : Result State :=
  requires (.and d r) s <| .next (finishAlu d (s.reg d &&& s.reg r) (logicFlags s.sreg (s.reg d &&& s.reg r)) s)

/-- R175. -/
def execAndi (d : Reg) (k : Byte) (s : State) : Result State :=
  requires (.andi d k) s <| .next (finishAlu d (s.reg d &&& k) (logicFlags s.sreg (s.reg d &&& k)) s)

/-- R176. -/
def execOr (d r : Reg) (s : State) : Result State :=
  requires (.or d r) s <| .next (finishAlu d (s.reg d ||| s.reg r) (logicFlags s.sreg (s.reg d ||| s.reg r)) s)

/-- R177. -/
def execOri (d : Reg) (k : Byte) (s : State) : Result State :=
  requires (.ori d k) s <| .next (finishAlu d (s.reg d ||| k) (logicFlags s.sreg (s.reg d ||| k)) s)

/-- R178. -/
def execEor (d r : Reg) (s : State) : Result State :=
  requires (.eor d r) s <| .next (finishAlu d (s.reg d ^^^ s.reg r) (logicFlags s.sreg (s.reg d ^^^ s.reg r)) s)

/-- R179: C is set always. -/
def execCom (d : Reg) (s : State) : Result State :=
  requires (.com d) s <| .next (finishAlu d (~~~(s.reg d)) (putFlag (logicFlags s.sreg (~~~(s.reg d))) .C true) s)

/-- R180. -/
def execNeg (d : Reg) (s : State) : Result State :=
  requires (.neg d) s <|
    .next (finishAlu d (subResult 0 (s.reg d) false) (subFlags s.sreg 0 (s.reg d) false false) s)

/-- R182. -/
def execCp (d r : Reg) (s : State) : Result State :=
  requires (.cp d r) s <| .next (finishCompare (subFlags s.sreg (s.reg d) (s.reg r) false false) s)

/-- R183. -/
def execCpc (d r : Reg) (s : State) : Result State :=
  requires (.cpc d r) s <| .next (finishCompare (subFlags s.sreg (s.reg d) (s.reg r) (s.flag .C) true) s)

/-- R184. -/
def execCpi (d : Reg) (k : Byte) (s : State) : Result State :=
  requires (.cpi d k) s <| .next (finishCompare (subFlags s.sreg (s.reg d) k false false) s)

/-- R185: no flag is written. -/
def execSwap (d : Reg) (s : State) : Result State :=
  requires (.swap d) s <|
    .next ((s.setReg d ((s.reg d).extractLsb' 0 4 ++ (s.reg d).extractLsb' 4 4)).advance 1)

/-- A right shift of `a` with `b` entering bit 7 (R186 to R188). -/
def shiftRight (b : Bool) (a : Byte) : Byte := BitVec.ofBool b ++ a.extractLsb' 1 7

/-- R186. -/
def execLsr (d : Reg) (s : State) : Result State :=
  requires (.lsr d) s <|
    .next (finishAlu d (shiftRight false (s.reg d)) (shiftRightFlags s.sreg (s.reg d) (shiftRight false (s.reg d))) s)

/-- R187: the old C enters bit 7. -/
def execRor (d : Reg) (s : State) : Result State :=
  requires (.ror d) s <|
    .next (finishAlu d (shiftRight (s.flag .C) (s.reg d))
      (shiftRightFlags s.sreg (s.reg d) (shiftRight (s.flag .C) (s.reg d))) s)

/-- R188: bit 7 is kept. -/
def execAsr (d : Reg) (s : State) : Result State :=
  requires (.asr d) s <|
    .next (finishAlu d (shiftRight (s.reg d).msb (s.reg d))
      (shiftRightFlags s.sreg (s.reg d) (shiftRight (s.reg d).msb (s.reg d))) s)

/-- The unsigned product (R189, R193). -/
def productUU (a b : Byte) : Word := BitVec.ofNat 16 (a.toNat * b.toNat)

/-- The signed product (R190, R194). -/
def productSS (a b : Byte) : Word := BitVec.ofInt 16 (a.toInt * b.toInt)

/-- The product of a signed and an unsigned byte (R191, R195). -/
def productSU (a b : Byte) : Word := BitVec.ofInt 16 (a.toInt * b.toNat)

/-- R189. -/
def execMul (d r : Reg) (s : State) : Result State :=
  requires (.mul d r) s <|
    .next (finishMul (productUU (s.reg d) (s.reg r)) (mulFlags s.sreg (productUU (s.reg d) (s.reg r))) s)

/-- R190. -/
def execMuls (d r : Reg) (s : State) : Result State :=
  requires (.muls d r) s <|
    .next (finishMul (productSS (s.reg d) (s.reg r)) (mulFlags s.sreg (productSS (s.reg d) (s.reg r))) s)

/-- R191. -/
def execMulsu (d r : Reg) (s : State) : Result State :=
  requires (.mulsu d r) s <|
    .next (finishMul (productSU (s.reg d) (s.reg r)) (mulFlags s.sreg (productSU (s.reg d) (s.reg r))) s)

/-- R193. -/
def execFmul (d r : Reg) (s : State) : Result State :=
  requires (.fmul d r) s <|
    .next (finishMul (productUU (s.reg d) (s.reg r) <<< 1) (fmulFlags s.sreg (productUU (s.reg d) (s.reg r))) s)

/-- R194. -/
def execFmuls (d r : Reg) (s : State) : Result State :=
  requires (.fmuls d r) s <|
    .next (finishMul (productSS (s.reg d) (s.reg r) <<< 1) (fmulFlags s.sreg (productSS (s.reg d) (s.reg r))) s)

/-- R195. -/
def execFmulsu (d r : Reg) (s : State) : Result State :=
  requires (.fmulsu d r) s <|
    .next (finishMul (productSU (s.reg d) (s.reg r) <<< 1) (fmulFlags s.sreg (productSU (s.reg d) (s.reg r))) s)

end Sys2Proof.Machine
end

