-- ==== Sys2Proof/Machine/BitOther.lean ====
section
/-! DEFINITION. Bit and other instructions (spec/41_bit_and_other.md R200 to R209): one meaning per instruction. -/

namespace Sys2Proof.Machine

open Sys2Proof

/-- R200: setting I when it was 0 arms the hold-off. -/
def execBset (b : BitVec 3) (s : State) : Result State :=
  requires (.bset b) s <| .next ((s.writeSreg (putBit s.sreg b.toNat true)).advance 1)

/-- R201. -/
def execBclr (b : BitVec 3) (s : State) : Result State :=
  requires (.bclr b) s <| .next ((s.setSreg (putBit s.sreg b.toNat false)).advance 1)

/-- R202: a read of the whole byte, then a write of the whole byte. -/
def execSbi (a : BitVec 5) (b : BitVec 3) (s : State) : Result State :=
  requires (.sbi a b) s <|
    let x := ioRead (a.setWidth 6) s
    .next ((ioWrite (a.setWidth 6) (putBit x.1 b.toNat true) x.2).advance 1)

/-- R203. -/
def execCbi (a : BitVec 5) (b : BitVec 3) (s : State) : Result State :=
  requires (.cbi a b) s <|
    let x := ioRead (a.setWidth 6) s
    .next ((ioWrite (a.setWidth 6) (putBit x.1 b.toNat false) x.2).advance 1)

/-- R204: T <- R[d][b]. -/
def execBst (d : Reg) (b : BitVec 3) (s : State) : Result State :=
  requires (.bst d b) s <| .next ((s.setSreg (putFlag s.sreg .T ((s.reg d).getLsbD b.toNat))).advance 1)

/-- R205: R[d][b] <- T. -/
def execBld (d : Reg) (b : BitVec 3) (s : State) : Result State :=
  requires (.bld d b) s <| .next ((s.setReg d (putBit (s.reg d) b.toNat (s.flag .T))).advance 1)

/-- R206. -/
def execNop (s : State) : Result State := requires .nop s <| .next (s.advance 1)

/-- R207: with `BREAK_MODE = stop` the run ends, the PC still at the BREAK word. -/
def execBreak (s : State) : Result State :=
  requires .brk s <|
    match s.cfg.breakMode with
    | .stop => .next (s.setRun .stopped)
    | .nop => .next (s.advance 1)

/-- R208 `SleepEnabled()`. -/
def sleepEnabled (s : State) : Bool :=
  match s.cfg.sleepEnabled with
  | .reference => true
  | .platform => Config.sleepIsEnabled s.io s.platform

/-- R208. -/
def execSleep (s : State) : Result State :=
  requires .sleep s <|
    .next (if sleepEnabled s then (s.advance 1).setRun .sleeping else s.advance 1)

/-- R209. -/
def execWdr (s : State) : Result State := requires .wdr s <| .next ((deviceWdr s).advance 1)

end Sys2Proof.Machine
end

