-- ==== Sys2Proof/Machine/Branch.lean ====
section
/-! DEFINITION. Skips and conditional branches (spec/45_branch.md R275 to R282): one meaning per instruction. -/

namespace Sys2Proof.Machine

open Sys2Proof

/-- R276. -/
def execCpse (d r : Reg) (s : State) : Result State := requires (.cpse d r) s <| skipIf (s.reg d == s.reg r) s

/-- R277. -/
def execSbrc (r : Reg) (b : BitVec 3) (s : State) : Result State :=
  requires (.sbrc r b) s <| skipIf (!(s.reg r).getLsbD b.toNat) s

/-- R278. -/
def execSbrs (r : Reg) (b : BitVec 3) (s : State) : Result State :=
  requires (.sbrs r b) s <| skipIf ((s.reg r).getLsbD b.toNat) s

/-- R279: one read of the I/O register, which the device sees. -/
def execSbic (a : BitVec 5) (b : BitVec 3) (s : State) : Result State :=
  requires (.sbic a b) s <|
    skipIf (!(ioRead (a.setWidth 6) s).1.getLsbD b.toNat) (ioRead (a.setWidth 6) s).2

/-- R280. -/
def execSbis (a : BitVec 5) (b : BitVec 3) (s : State) : Result State :=
  requires (.sbis a b) s <|
    skipIf ((ioRead (a.setWidth 6) s).1.getLsbD b.toNat) (ioRead (a.setWidth 6) s).2

/-- R281, R282: the relative target when the condition holds, else the next instruction. -/
def branchIf (cond : Bool) (k : BitVec 7) (s : State) : State :=
  if cond then s.setPc (s.relative k.toInt) else s.advance 1

/-- R281. -/
def execBrbs (b : BitVec 3) (k : BitVec 7) (s : State) : Result State :=
  requires (.brbs b k) s <| .next (branchIf (s.sreg.getLsbD b.toNat) k s)

/-- R282. -/
def execBrbc (b : BitVec 3) (k : BitVec 7) (s : State) : Result State :=
  requires (.brbc b k) s <| .next (branchIf (!s.sreg.getLsbD b.toNat) k s)

end Sys2Proof.Machine
end

