-- ==== Sys2Proof/Machine/Call.lean ====
section
/-! DEFINITION. Calls and returns (spec/46_call.md R290 to R296): one meaning per instruction. -/

namespace Sys2Proof.Machine

open Sys2Proof

/-- R290. -/
def execRcall (k : BitVec 12) (s : State) : Result State := requires (.rcall k) s <| callTo (s.relative k.toInt) 1 s

/-- R291: Z is read before the pushes. -/
def execIcall (s : State) : Result State := requires .icall s <| callTo (zAddr s) 1 s

/-- R292. -/
def execEicall (s : State) : Result State := requires .eicall s <| callTo (eindZ s) 1 s

/-- R293. -/
def execCall (k : BitVec 22) (s : State) : Result State := requires (.call k) s <| callTo k.toNat 2 s

/-- R294. -/
def execRet (s : State) : Result State := requires .ret s <| andThen (popPc s) fun x => .next (x.2.setPc x.1)

/-- R295. -/
def execReti (s : State) : Result State := requires .reti s <| returnFromInterrupt s

end Sys2Proof.Machine
end

