-- ==== Sys2Proof/Machine/Jump.lean ====
section
/-! DEFINITION. Jumps (spec/44_jump.md R265 to R269): one meaning per instruction. A target beyond the flash is found by the
next fetch (R269). -/

namespace Sys2Proof.Machine

open Sys2Proof

/-- R265. -/
def execRjmp (k : BitVec 12) (s : State) : Result State := requires (.rjmp k) s <| .next (s.setPc (s.relative k.toInt))

/-- R266. -/
def execIjmp (s : State) : Result State := requires .ijmp s <| .next (s.setPc (zAddr s))

/-- R267. -/
def execEijmp (s : State) : Result State := requires .eijmp s <| .next (s.setPc (eindZ s))

/-- R268. -/
def execJmp (k : BitVec 22) (s : State) : Result State := requires (.jmp k) s <| .next (s.setPc k.toNat)

end Sys2Proof.Machine
end

