-- ==== Sys2Proof/Machine/ProgramMemory.lean ====
section
/-! DEFINITION. Program-memory transfers LPM, ELPM, SPM (spec/43_transfer_program_memory.md R250 to R260): one meaning per
instruction. -/

namespace Sys2Proof.Machine

open Sys2Proof

/-- R250. -/
def execLpm (s : State) : Result State := requires .lpm s <| loadProgram (zAddr s) 0 id s

/-- R251. -/
def execLpmZ (d : Reg) (s : State) : Result State := requires (.lpmZ d) s <| loadProgram (zAddr s) d id s

/-- R252: RAMPZ is not touched. -/
def execLpmZInc (d : Reg) (s : State) : Result State :=
  requires (.lpmZInc d) s <| requiresDisjoint (.lpmZInc d) d Ptr.z.lo <|
    loadProgram (zAddr s) d (fun t => t.setPair 30 (s.pair 30 + 1)) s

/-- R253. -/
def execElpm (s : State) : Result State := requires .elpm s <| loadProgram (rampzZ s).toNat 0 id s

/-- R254. -/
def execElpmZ (d : Reg) (s : State) : Result State := requires (.elpmZ d) s <| loadProgram (rampzZ s).toNat d id s

/-- R255: the whole 24-bit address RAMPZ:Z is incremented. -/
def execElpmZInc (d : Reg) (s : State) : Result State :=
  requires (.elpmZInc d) s <| requiresDisjoint (.elpmZInc d) d Ptr.z.lo <|
    loadProgram (rampzZ s).toNat d
      (fun t => (t.setPair 30 ((rampzZ s + 1).extractLsb' 0 16)).setRampz ((rampzZ s + 1).extractLsb' 16 8)) s

/-- What the platform's `SpmEffect` answers for the state (R258): address RAMPZ:Z, data R1:R0. -/
def spmResult (s : State) : SpmResult := Config.platformSpm s.flash s.io s.platform (rampzZ s) (s.pair 0)

/-- R258: `(ProgMem, IoDevice) <- SpmEffect(...)`; what it writes outside the flash of the part is no program memory. -/
def applySpm (s : State) : State :=
  ((s.setFlash (Memory.writeAll Memory.flashByte s.flash
      ((spmResult s).flashWrites.filter fun c => decide (c.1 < 2 * s.cfg.flashWords)))).setIo
    (Memory.writeAll Memory.ioByte s.io (spmResult s).ioWrites)).setPlatform (spmResult s).platform

/-- R258: the reference `SpmEffect` refuses. -/
def withSpmEffect (s : State) (k : Result State) : Result State :=
  match s.cfg.spmEffect with
  | .reference => .fault .spmNotModelled
  | .platform => k

/-- R258. -/
def execSpm (s : State) : Result State := requires .spm s <| withSpmEffect s <| .next ((applySpm s).advance 1)

/-- R259: Z <- Z + 2 after the effect; whether RAMPZ takes the carry is the platform's (a free value). -/
def bumpZ (s : State) (t : State) : State :=
  let u := t.setPair 30 (s.pair 30 + 2)
  if s.cfg.hasRampZ && Config.spmCarriesIntoRampz then u.setRampz ((rampzZ s + 2).extractLsb' 16 8) else u

/-- R259. -/
def execSpmZInc (s : State) : Result State :=
  requires .spmZInc s <| withSpmEffect s <| .next ((bumpZ s (applySpm s)).advance 1)

end Sys2Proof.Machine
end

