-- ==== Sys2Proof/Machine/Transfer.lean ====
section
/-! DEFINITION. Data transfers between registers, the I/O space, the stack and the data space (spec/42_transfer_data.md R215
to R235): one meaning per instruction. -/

namespace Sys2Proof.Machine

open Sys2Proof

/-- R215. -/
def execMov (d r : Reg) (s : State) : Result State :=
  requires (.mov d r) s <| .next ((s.setReg d (s.reg r)).advance 1)

/-- R216. -/
def execMovw (d r : Reg) (s : State) : Result State :=
  requires (.movw d r) s <| .next ((s.setPair d (s.pair r)).advance 1)

/-- R219. -/
def execLdi (d : Reg) (k : Byte) (s : State) : Result State :=
  requires (.ldi d k) s <| .next ((s.setReg d k).advance 1)

/-- R217. -/
def execIn (d : Reg) (a : BitVec 6) (s : State) : Result State :=
  requires (.inp d a) s <| .next (((ioRead a s).2.setReg d (ioRead a s).1).advance 1)

/-- R218. -/
def execOut (a : BitVec 6) (r : Reg) (s : State) : Result State :=
  requires (.out a r) s <| .next ((ioWrite a (s.reg r) s).advance 1)

/-- R221. -/
def execPush (r : Reg) (s : State) : Result State :=
  requires (.push r) s <| andThen (push (s.reg r) s) fun t => .next (t.advance 1)

/-- R222. -/
def execPop (d : Reg) (s : State) : Result State :=
  requires (.pop d) s <| andThen (pop s) fun x => .next ((x.2.setReg d x.1).advance 1)

/-- R224. -/
def execLds (d : Reg) (k : Word) (s : State) : Result State :=
  requires (.lds d k) s <| loadFrom (directAddr k s) d id 2 s

/-- R231. -/
def execSts (k : Word) (r : Reg) (s : State) : Result State :=
  requires (.sts k r) s <| storeTo (directAddr k s) (s.reg r) id 2 s

/-- R225. -/
def execLdX (d : Reg) (s : State) : Result State := requires (.ldX d) s <| loadFrom (dataAddr .x s) d id 1 s

/-- R226. -/
def execLdXInc (d : Reg) (s : State) : Result State :=
  requires (.ldXInc d) s <| requiresDisjoint (.ldXInc d) d Ptr.x.lo <| loadInc .x d s

/-- R227. -/
def execLdXDec (d : Reg) (s : State) : Result State :=
  requires (.ldXDec d) s <| requiresDisjoint (.ldXDec d) d Ptr.x.lo <| loadDec .x d s

/-- R226. -/
def execLdYInc (d : Reg) (s : State) : Result State :=
  requires (.ldYInc d) s <| requiresDisjoint (.ldYInc d) d Ptr.y.lo <| loadInc .y d s

/-- R227. -/
def execLdYDec (d : Reg) (s : State) : Result State :=
  requires (.ldYDec d) s <| requiresDisjoint (.ldYDec d) d Ptr.y.lo <| loadDec .y d s

/-- R226. -/
def execLdZInc (d : Reg) (s : State) : Result State :=
  requires (.ldZInc d) s <| requiresDisjoint (.ldZInc d) d Ptr.z.lo <| loadInc .z d s

/-- R227. -/
def execLdZDec (d : Reg) (s : State) : Result State :=
  requires (.ldZDec d) s <| requiresDisjoint (.ldZDec d) d Ptr.z.lo <| loadDec .z d s

/-- R228. -/
def execLddY (d : Reg) (q : BitVec 6) (s : State) : Result State := requires (.lddY d q) s <| loadDisp .y q d s

/-- R228. -/
def execLddZ (d : Reg) (q : BitVec 6) (s : State) : Result State := requires (.lddZ d q) s <| loadDisp .z q d s

/-- R232. -/
def execStX (r : Reg) (s : State) : Result State := requires (.stX r) s <| storeTo (dataAddr .x s) (s.reg r) id 1 s

/-- R233. -/
def execStXInc (r : Reg) (s : State) : Result State :=
  requires (.stXInc r) s <| requiresDisjoint (.stXInc r) r Ptr.x.lo <| storeInc .x r s

/-- R234. -/
def execStXDec (r : Reg) (s : State) : Result State :=
  requires (.stXDec r) s <| requiresDisjoint (.stXDec r) r Ptr.x.lo <| storeDec .x r s

/-- R233. -/
def execStYInc (r : Reg) (s : State) : Result State :=
  requires (.stYInc r) s <| requiresDisjoint (.stYInc r) r Ptr.y.lo <| storeInc .y r s

/-- R234. -/
def execStYDec (r : Reg) (s : State) : Result State :=
  requires (.stYDec r) s <| requiresDisjoint (.stYDec r) r Ptr.y.lo <| storeDec .y r s

/-- R233. -/
def execStZInc (r : Reg) (s : State) : Result State :=
  requires (.stZInc r) s <| requiresDisjoint (.stZInc r) r Ptr.z.lo <| storeInc .z r s

/-- R234. -/
def execStZDec (r : Reg) (s : State) : Result State :=
  requires (.stZDec r) s <| requiresDisjoint (.stZDec r) r Ptr.z.lo <| storeDec .z r s

/-- R235. -/
def execStdY (q : BitVec 6) (r : Reg) (s : State) : Result State := requires (.stdY q r) s <| storeDisp .y q r s

/-- R235. -/
def execStdZ (q : BitVec 6) (r : Reg) (s : State) : Result State := requires (.stdZ q r) s <| storeDisp .z q r s

end Sys2Proof.Machine
end

