-- ==== Sys2Proof/Machine/XmegaDes.lean ====
section
/-! DEFINITION. The XMEGA read-modify-write instructions and DES (spec/47_xmega_rmw_des.md R305 to R310): one meaning per
instruction. -/

namespace Sys2Proof.Machine

open Sys2Proof

/-- R305: memory <- Rd. -/
def execXch (d : Reg) (s : State) : Result State := requires (.xch d) s <| readModifyWrite (fun _ v => v) d s

/-- R306: memory <- old | Rd. -/
def execLas (d : Reg) (s : State) : Result State := requires (.las d) s <| readModifyWrite (fun old v => old ||| v) d s

/-- R307: memory <- old & ~Rd. -/
def execLac (d : Reg) (s : State) : Result State := requires (.lac d) s <| readModifyWrite (fun old v => old &&& ~~~v) d s

/-- R308: memory <- old ^ Rd. -/
def execLat (d : Reg) (s : State) : Result State := requires (.lat d) s <| readModifyWrite (fun old v => old ^^^ v) d s

/-- R0 to R15, the registers DES reads and writes (R310). -/
def State.lowRegs (s : State) : Vector Byte 16 := Vector.ofFn fun i : Fin 16 => s.regs[i.val]'(by omega)

/-- A register file with its first sixteen registers replaced. -/
@[irreducible] def withLow (v : Vector Byte 16) (regs : Vector Byte 32) : Vector Byte 32 :=
  Vector.ofFn fun i : Fin 32 => if h : i.val < 16 then v[i.val]'h else regs[i.val]'i.isLt

/-- R0 to R15 replaced. -/
def State.setLowRegs (s : State) (v : Vector Byte 16) : State := { s with regs := withLow v s.regs }

/-- R310: the round function is the platform parameter `DesRound`, a free value. -/
def execDes (k : BitVec 4) (s : State) : Result State :=
  requires (.des k) s <| .next ((s.setLowRegs (Config.desRound k (s.flag .H) s.lowRegs)).advance 1)

end Sys2Proof.Machine
end

