-- ==== Sys2Proof/Machine/Fetch.lean ====
section
/-! DEFINITION. What one step does before an instruction's own rule (spec/60_exceptions.md R336): the test for an interrupt,
the run states, the fetch and the decoding; and the loading of one instruction's words at the program counter. -/

namespace Sys2Proof.Machine

open Sys2Proof

/-- R54, R90, R121: the second program word of an instruction whose first word is `w`; 0 for a one-word instruction, which
has none. -/
def secondWord (w : Word) (s : State) : Result Word :=
  if wordLength w = 2 then progWord (s.nextPc 1) s else .next 0

/-- R134, R138: the instruction of the words, or the fault of a reserved word. -/
def decodeOrFault (w k : Word) : Result Instr :=
  match decodeWords w k with
  | some i => .next i
  | none => .fault (.reservedOpcode w)

/-- R336: `w <- ProgWord(pc)`, the second word where there is one, and the decoding. -/
def fetch (s : State) : Result Instr :=
  andThen (progWord s.pc.toNat s) fun w =>
  andThen (secondWord w s) fun k =>
  decodeOrFault w k

/-- R324, R326: the interrupt that is taken at this boundary, if one is: the lowest vector number pending, with I = 1 and no
hold-off. -/
def interruptDue (s : State) : Option Nat := if s.flag .I && !s.irqHoldoff then lowestPending s else none

/-- R336: what a step does. -/
inductive Activity where
  /-- The run has ended (R347). -/
  | ended
  /-- An interrupt is taken. -/
  | interrupt (n : Nat)
  /-- The core sleeps (R345). -/
  | asleep
  /-- An instruction is fetched and executed. -/
  | execute
deriving DecidableEq, Repr

/-- R336: the order of the tests of one step. -/
def activity (s : State) : Activity :=
  if s.run = .stopped then .ended
  else match interruptDue s with
    | some n => .interrupt n
    | none => if s.run = .sleeping then .asleep else .execute

/-- One step of R336; `run i t` is what instruction `i` does in state `t`. A stopped machine and a sleeping one that no
interrupt wakes stay as they are (notes/assumptions/12.md). -/
def stepWith (run : Instr → State → Result State) (s : State) : Result State :=
  match activity s with
  | .ended => .next s
  | .interrupt n => takeInterrupt n s
  | .asleep => .next s
  | .execute => andThen (fetch s) fun i => run i (s.setHoldoff false)

/-- A program word stored at a word address, its low byte at the even byte address (R91). -/
def storeWord (a : Nat) (w : Word) (m : Memory) : Memory :=
  Memory.write Memory.flashByte (Memory.write Memory.flashByte m (2 * a) (w.extractLsb' 0 8)) (2 * a + 1)
    (w.extractLsb' 8 8)

/-- The instruction whose bits are `w` (`nbits` of them, the rest 0, the first word least significant) stored at the program
counter. -/
def loadAtPc (nbits w : Nat) (s : State) : State :=
  let v := w % 2 ^ nbits
  s.setFlash (storeWord (s.nextPc 1) (BitVec.ofNat 16 (v / 65536)) (storeWord s.pc.toNat (BitVec.ofNat 16 v) s.flash))

end Sys2Proof.Machine
end

