-- ==== Sys2Proof/Machine/Step.lean ====
section
/-! DEFINITION. One step of the machine (spec/60_exceptions.md R336), and a state whose next instruction is a given one. -/

namespace Sys2Proof.Machine

open Sys2Proof

/-- R336: one step: an interrupt entry, one instruction, or nothing while the core sleeps or after the run has ended. -/
def step (s : State) : Host.Outcome State Fault Refusal := stepWith exec s

/-- The state with one instruction loaded where `step` fetches next: at the program counter. Nothing but program memory
changes; it stands for the loading of a program from outside the machine (R346, notes/assumptions/4.md). -/
def State.withFetchWord (s : State) (nbits w : Nat) : State := loadAtPc nbits w s

end Sys2Proof.Machine
end

