-- ==== Sys2Proof/Safety.lean ====
section
/-! DEFINITION. The terms that statements about the machine use: what is observed of a state, the invariant of every step,
what an instruction may change (spec/10_state.md R45, spec/20_memory.md R98), and the end of a run (spec/60 R347). -/

namespace Sys2Proof.Machine

open Sys2Proof

/-! ## Observations -/

/-- The byte at data address `a` as a load finds it (R84); none where a load faults. -/
def State.dataByte (s : State) (a : Nat) : Option Byte :=
  match memRead a s with
  | .next x => some x.1
  | .fault _ => none
  | .refused _ => none

/-- The byte of SRAM at data address `a` (R88). -/
def State.sramAt (s : State) (a : Nat) : Byte := Memory.read Memory.sramByte s.sram a

/-- The byte of the reference `IoDevice` at data address `a` (R346). -/
def State.ioAt (s : State) (a : Nat) : Byte := Memory.read Memory.ioByte s.io a

/-- A data address that the map gives a meaning: a load from it and a store to it complete (R80, R82, R89). -/
def mapped (c : Config) (a : Nat) : Bool := place c a != .nothing

/-- The data address is a byte of SRAM. -/
def isSram (c : Config) (a : Nat) : Bool := place c a == .sram

/-- A data address whose byte stays as written: SRAM, a general register, or a register of the reference `IoDevice`. -/
def plainByte (s : State) (a : Nat) : Bool :=
  match place s.cfg a with
  | .register _ => true
  | .io p => (cpuRead s p).isNone && s.cfg.ioDevice == .reference
  | .device => s.cfg.ioDevice == .reference
  | .sram => true
  | .nothing => false

/-! ## The invariant -/

/-- R34: the PC has `PC_BITS` bits. -/
abbrev pcInRange (s : State) : Prop := s.pc.toNat < 2 ^ s.cfg.pcBits

/-- R46: the SP has `SP_BITS` bits. -/
abbrev spInRange (s : State) : Prop := s.sp.toNat < 2 ^ s.cfg.spBits

/-- R48, spec/92 D26: the segment registers have their implemented bits. -/
abbrev segmentsInRange (s : State) : Prop :=
  s.rampx.toNat < 2 ^ s.cfg.rampBits ∧ s.rampy.toNat < 2 ^ s.cfg.rampBits ∧ s.rampz.toNat < 2 ^ s.cfg.rampBits ∧
    s.rampd.toNat < 2 ^ s.cfg.rampBits ∧ s.eind.toNat < 2 ^ s.cfg.eindBits

/-- R48: a segment register that is absent holds 0. -/
abbrev absentSegmentsZero (s : State) : Prop :=
  (s.cfg.hasRampX = false → s.rampx = 0) ∧ (s.cfg.hasRampY = false → s.rampy = 0) ∧
    (s.cfg.hasRampZ = false → s.rampz = 0) ∧ (s.cfg.hasRampD = false → s.rampd = 0) ∧
    (s.cfg.hasEind = false → s.eind = 0)

/-- R88: SRAM is listed canonically and lies between `RAMSTART` and `RAMEND`. -/
abbrev sramOk (s : State) : Prop :=
  Memory.wf Memory.sramByte s.sram ∧ ∀ c ∈ s.sram, s.cfg.ramStart ≤ c.1 ∧ c.1 ≤ s.cfg.ramEnd

/-- The device storage is listed canonically. -/
abbrev ioOk (s : State) : Prop := Memory.wf Memory.ioByte s.io

/-- R54, R91: program memory is listed canonically and has `FLASH_WORDS` words. -/
abbrev flashOk (s : State) : Prop :=
  Memory.wf Memory.flashByte s.flash ∧ ∀ c ∈ s.flash, c.1 < 2 * s.cfg.flashWords

/-- What every step keeps. -/
abbrev Invariant (s : State) : Prop :=
  pcInRange s ∧ spInRange s ∧ segmentsInRange s ∧ absentSegmentsZero s ∧ sramOk s ∧ ioOk s ∧ flashOk s

/-! ## What an instruction may change -/

/-- The state that an instruction may change, beside the PC. -/
structure Change where
  /-- General registers. -/
  regs : List Reg := []
  /-- Flags of SREG. -/
  flags : List Flag := []
  /-- Data addresses stored to. A store may land on a register or on a CPU register (R81, R83). -/
  stores : List Nat := []
  /-- The stack pointer. -/
  sp : Bool := false
  /-- The RAMP registers of pointers. -/
  ramps : List Ptr := []
  /-- The interrupt hold-off. -/
  holdoff : Bool := false
  /-- The run state. -/
  run : Bool := false
  /-- Program memory and all device storage: SPM. -/
  program : Bool := false

/-- Some stored address is the place `p`. -/
def Change.hits (c : Change) (s : State) (p : Place) : Prop := ∃ a ∈ c.stores, place s.cfg a = p

/-- Everything that `c` does not list is the same in `t` as in `s`, the PC excepted. -/
structure Frame (c : Change) (s t : State) : Prop where
  cfg : t.cfg = s.cfg
  regs : ∀ r, r ∉ c.regs → ¬ c.hits s (.register r) → t.reg r = s.reg r
  flags : ∀ f, f ∉ c.flags → ¬ c.hits s (.io 0x3F) → t.flag f = s.flag f
  sp : c.sp = false → ¬ c.hits s (.io 0x3D) → ¬ c.hits s (.io 0x3E) → t.sp = s.sp
  rampx : Ptr.x ∉ c.ramps → ¬ c.hits s (.io 0x39) → t.rampx = s.rampx
  rampy : Ptr.y ∉ c.ramps → ¬ c.hits s (.io 0x3A) → t.rampy = s.rampy
  rampz : Ptr.z ∉ c.ramps → ¬ c.hits s (.io 0x3B) → t.rampz = s.rampz
  rampd : ¬ c.hits s (.io 0x38) → t.rampd = s.rampd
  eind : ¬ c.hits s (.io 0x3C) → t.eind = s.eind
  sram : ∀ a, a ∉ c.stores → t.sramAt a = s.sramAt a
  io : c.program = false → ∀ a, a ∉ c.stores → t.ioAt a = s.ioAt a
  flash : c.program = false → ∀ b, t.flashAt b = s.flashAt b
  holdoff : c.holdoff = false → ¬ c.hits s (.io 0x3F) → ¬ c.hits s (.io 0x3D) → t.irqHoldoff = s.irqHoldoff
  run : c.run = false → t.run = s.run
  irqPending : t.irqPending = s.irqPending
  platform : s.cfg.ioDevice = .reference → s.cfg.irq = .reference → c.program = false → t.platform = s.platform

/-- H, S, V, N, Z, C. -/
def flagsArithmetic : List Flag := [.H, .S, .V, .N, .Z, .C]

/-- S, V, N, Z, C. -/
def flagsShift : List Flag := [.S, .V, .N, .Z, .C]

/-- S, V, N, Z. -/
def flagsLogic : List Flag := [.S, .V, .N, .Z]

/-- The flag of a bit number of SREG (R11, R36). -/
def flagOfBit (b : BitVec 3) : Flag :=
  if b = 0 then .C else if b = 1 then .Z else if b = 2 then .N else if b = 3 then .V
  else if b = 4 then .S else if b = 5 then .H else if b = 6 then .T else .I

/-- The data addresses that the pushes of a call write: SP, the byte below, and with a 22-bit PC the byte below that
(R95). -/
def callStores (s : State) : List Nat :=
  let s1 := s.setSp (spBelow s)
  let s2 := s1.setSp (spBelow s1)
  if s.cfg.pcBits = 22 then [s.sp.toNat, s1.sp.toNat, s2.sp.toNat] else [s.sp.toNat, s1.sp.toNat]

/-- The two registers of a pointer. -/
def Ptr.regs (p : Ptr) : List Reg := [p.lo, p.lo + 1]

/-- The RAMP register that an update of the pointer writes back: none where it takes no part in data addressing (R92). -/
def Ptr.rampWritten (c : Config) (p : Ptr) : List Ptr := if p.extended c then [p] else []

/-- What each instruction may change in a state, beside the PC: the registers its rule writes, the flags R45 lists, the
data addresses it stores to, computed as its meaning computes them. -/
def changes (i : Instr) (s : State) : Change :=
  match i with
  | .nop | .wdr => {}
  | .movw d _ => { regs := [d, d + 1] }
  | .mul _ _ | .muls _ _ | .mulsu _ _ | .fmul _ _ | .fmuls _ _ | .fmulsu _ _ => { regs := [0, 1], flags := [.Z, .C] }
  | .cp _ _ | .cpc _ _ | .cpi _ _ => { flags := flagsArithmetic }
  | .add d _ | .adc d _ | .sub d _ | .sbc d _ => { regs := [d], flags := flagsArithmetic }
  | .subi d _ | .sbci d _ => { regs := [d], flags := flagsArithmetic }
  | .neg d => { regs := [d], flags := flagsArithmetic }
  | .and d _ | .or d _ | .eor d _ => { regs := [d], flags := flagsLogic }
  | .andi d _ | .ori d _ => { regs := [d], flags := flagsLogic }
  | .inc d | .dec d => { regs := [d], flags := flagsLogic }
  | .com d | .lsr d | .ror d | .asr d => { regs := [d], flags := flagsShift }
  | .adiw d _ | .sbiw d _ => { regs := [d, d + 1], flags := flagsShift }
  | .swap d | .bld d _ | .ldX d | .lpmZ d | .elpmZ d => { regs := [d] }
  | .mov d _ => { regs := [d] }
  | .ldi d _ => { regs := [d] }
  | .inp d _ | .lddY d _ | .lddZ d _ => { regs := [d] }
  | .lds d _ => { regs := [d] }
  | .lpm | .elpm => { regs := [0] }
  | .ldXInc d | .ldXDec d => { regs := d :: Ptr.x.regs, ramps := Ptr.x.rampWritten s.cfg }
  | .ldYInc d | .ldYDec d => { regs := d :: Ptr.y.regs, ramps := Ptr.y.rampWritten s.cfg }
  | .ldZInc d | .ldZDec d => { regs := d :: Ptr.z.regs, ramps := Ptr.z.rampWritten s.cfg }
  | .lpmZInc d => { regs := d :: Ptr.z.regs }
  | .elpmZInc d => { regs := d :: Ptr.z.regs, ramps := [.z] }
  | .sts k _ => { stores := [directAddr k s] }
  | .stX _ => { stores := [dataAddr .x s] }
  | .stdY q _ => { stores := [dispAddr .y q s] }
  | .stdZ q _ => { stores := [dispAddr .z q s] }
  | .stXInc _ => { regs := Ptr.x.regs, ramps := Ptr.x.rampWritten s.cfg, stores := [dataAddr .x s] }
  | .stYInc _ => { regs := Ptr.y.regs, ramps := Ptr.y.rampWritten s.cfg, stores := [dataAddr .y s] }
  | .stZInc _ => { regs := Ptr.z.regs, ramps := Ptr.z.rampWritten s.cfg, stores := [dataAddr .z s] }
  | .stXDec _ => { regs := Ptr.x.regs, ramps := Ptr.x.rampWritten s.cfg, stores := [decAddr .x s] }
  | .stYDec _ => { regs := Ptr.y.regs, ramps := Ptr.y.rampWritten s.cfg, stores := [decAddr .y s] }
  | .stZDec _ => { regs := Ptr.z.regs, ramps := Ptr.z.rampWritten s.cfg, stores := [decAddr .z s] }
  | .xch d | .las d | .lac d | .lat d => { regs := [d], stores := [dataAddr .z s] }
  | .out a _ => { stores := [a.toNat + ioBase s.cfg] }
  | .sbi a _ | .cbi a _ => { stores := [a.toNat + ioBase s.cfg] }
  | .push _ => { stores := [s.sp.toNat], sp := true }
  | .pop d => { regs := [d], sp := true }
  | .bset b => { flags := [flagOfBit b], holdoff := b == 7 }
  | .bclr b => { flags := [flagOfBit b] }
  | .bst _ _ => { flags := [.T] }
  | .ret => { sp := true }
  | .reti => { sp := true, flags := [.I], holdoff := true }
  | .sleep | .brk => { run := true }
  | .spm => { program := true }
  | .spmZInc => { regs := Ptr.z.regs, ramps := [.z], program := true }
  | .ijmp | .eijmp | .jmp _ | .rjmp _ | .brbs _ _ | .brbc _ _ => {}
  | .cpse _ _ | .sbic _ _ | .sbis _ _ | .sbrc _ _ | .sbrs _ _ => {}
  | .icall | .eicall | .call _ | .rcall _ => { stores := callStores s, sp := true }
  | .des _ => { regs := [0, 1, 2, 3, 4, 5, 6, 7, 8, 9, 10, 11, 12, 13, 14, 15] }

/-! ## Terms of the statements -/

/-- The families of the instruction files spec/40 to spec/47. -/
inductive Family where
  | arithmetic | bit | transfer | programMemory | jump | branch | call | xmega
deriving DecidableEq, Repr

/-- The family of an instruction: the file of spec/ with its rule. -/
def family : Instr → Family
  | .add _ _ | .adc _ _ | .adiw _ _ | .sub _ _ | .subi _ _ | .sbc _ _ | .sbci _ _ | .sbiw _ _ | .inc _ | .dec _
  | .and _ _ | .andi _ _ | .or _ _ | .ori _ _ | .eor _ _ | .com _ | .neg _ | .cp _ _ | .cpc _ _ | .cpi _ _ | .swap _
  | .lsr _ | .ror _ | .asr _ | .mul _ _ | .muls _ _ | .mulsu _ _ | .fmul _ _ | .fmuls _ _ | .fmulsu _ _ => .arithmetic
  | .bset _ | .bclr _ | .sbi _ _ | .cbi _ _ | .bst _ _ | .bld _ _ | .nop | .brk | .sleep | .wdr => .bit
  | .mov _ _ | .movw _ _ | .ldi _ _ | .inp _ _ | .out _ _ | .push _ | .pop _ | .lds _ _ | .sts _ _ => .transfer
  | .ldX _ | .ldXInc _ | .ldXDec _ | .ldYInc _ | .ldYDec _ | .ldZInc _ | .ldZDec _ | .lddY _ _ | .lddZ _ _ => .transfer
  | .stX _ | .stXInc _ | .stXDec _ | .stYInc _ | .stYDec _ | .stZInc _ | .stZDec _ | .stdY _ _ | .stdZ _ _ => .transfer
  | .lpm | .lpmZ _ | .lpmZInc _ | .elpm | .elpmZ _ | .elpmZInc _ | .spm | .spmZInc => .programMemory
  | .rjmp _ | .ijmp | .eijmp | .jmp _ => .jump
  | .cpse _ _ | .sbrc _ _ | .sbrs _ _ | .sbic _ _ | .sbis _ _ | .brbs _ _ | .brbc _ _ => .branch
  | .rcall _ | .icall | .eicall | .call _ | .ret | .reti => .call
  | .xch _ | .las _ | .lac _ | .lat _ | .des _ => .xmega

/-- R120: the two-word instructions are LDS, STS, JMP and CALL. -/
def isTwoWords : Instr → Bool
  | .lds _ _ | .sts _ _ | .jmp _ | .call _ => true
  | _ => false

/-- R136, R137: the words that are no instruction, row by row of the two rules' tables. -/
def isReserved (w : Word) : Bool :=
  w &&& 0xFE0F == 0x9404 || w &&& 0xFFEF == 0x9528 || w &&& 0xFFCF == 0x9548 || w == 0x95B8 ||
  w &&& 0xF808 == 0xF808 || (w &&& 0xFF00 == 0x0000 && w != 0) || w &&& 0xFC0F == 0x9003 || w &&& 0xFC0F == 0x9008 ||
  w &&& 0xFC0F == 0x900B || (w &&& 0xFE0F == 0x9409 && w &&& 0x00E0 != 0) || w &&& 0xFF0F == 0x950B

/-- `next(pc, n)` as a value of the PC (R10). -/
def State.pcAfter (s : State) (n : Nat) : BitVec 22 := BitVec.ofNat 22 ((s.pc.toNat + n) % 2 ^ s.cfg.pcBits)

/-- `(pc + 1 + k) mod 2^PC_BITS` as a value of the PC (R35). -/
def State.pcRelative (s : State) (k : Int) : BitVec 22 :=
  BitVec.ofNat 22 (((s.pc.toNat : Int) + 1 + k) % ((2 ^ s.cfg.pcBits : Nat) : Int)).toNat

/-- `(SP - n) mod 2^SP_BITS`. -/
def State.spMinus (s : State) (n : Nat) : Nat := (s.sp.toNat + n * (2 ^ s.cfg.spBits - 1)) % 2 ^ s.cfg.spBits

/-- `(SP + n) mod 2^SP_BITS`. -/
def State.spPlus (s : State) (n : Nat) : Nat := (s.sp.toNat + n) % 2 ^ s.cfg.spBits

/-- R95: the number of bytes of a return address. -/
def pcBytes (c : Config) : Nat := if c.pcBits = 22 then 3 else 2

/-- The data addresses that `PopPC` reads (R95). -/
def popAddresses (s : State) : List Nat :=
  if s.cfg.pcBits = 22 then [s.spPlus 1, s.spPlus 2, s.spPlus 3] else [s.spPlus 1, s.spPlus 2]

/-- Every byte that a call would push lies in SRAM. -/
abbrev stackInSram (s : State) : Prop := ∀ a ∈ callStores s, isSram s.cfg a = true

/-- The machine turns the instruction away as missing (R138, R146). -/
abbrev State.lacks (s : State) (i : Instr) : Prop := ∃ m, exec i s = .fault (.notImplemented m)

/-- R63: the register is one of R0 to R15 on the AVRtiny core. -/
abbrev lacksReg (c : Config) (r : Reg) : Prop := c.core = .avrTiny ∧ r.toNat < 16

/-- R47, R49: `v` stored at data address `a` of `s` stands afterwards in the CPU register that lies there, SP excepted: whole
in SREG, its implemented bits in a segment register (notes/assumptions/17.md). -/
abbrev heldByCpuRegister (s t : State) (a : Nat) (v : Byte) : Prop :=
  (place s.cfg a = .io 0x3F → t.sreg = v) ∧
  (place s.cfg a = .io 0x3C → s.cfg.hasEind = true → t.eind.toNat = v.toNat % 2 ^ s.cfg.eindBits) ∧
  (place s.cfg a = .io 0x3B → s.cfg.hasRampZ = true → t.rampz.toNat = v.toNat % 2 ^ s.cfg.rampBits) ∧
  (place s.cfg a = .io 0x3A → s.cfg.hasRampY = true → t.rampy.toNat = v.toNat % 2 ^ s.cfg.rampBits) ∧
  (place s.cfg a = .io 0x39 → s.cfg.hasRampX = true → t.rampx.toNat = v.toNat % 2 ^ s.cfg.rampBits) ∧
  (place s.cfg a = .io 0x38 → s.cfg.hasRampD = true → t.rampd.toNat = v.toNat % 2 ^ s.cfg.rampBits)

/-- R46, R49: `v` stored at data address `a` of `s` stands afterwards in the half of SP that lies there, the other half
kept. AVR1 has no SP, and an 8-bit SP has no upper half. -/
abbrev heldBySp (s t : State) (a : Nat) (v : Byte) : Prop :=
  (place s.cfg a = .io 0x3E → s.cfg.core ≠ .avr1 → s.cfg.spBits = 16 → t.sp = v ++ s.sp.extractLsb' 0 8) ∧
  (place s.cfg a = .io 0x3D → s.cfg.core ≠ .avr1 → s.cfg.spBits = 16 → t.sp = s.sp.extractLsb' 8 8 ++ v) ∧
  (place s.cfg a = .io 0x3D → s.cfg.core ≠ .avr1 → s.cfg.spBits = 8 → t.sp = v.setWidth 16)

/-- R92: the pointer with what it is made of: the byte of its RAMP register, the I/O address of that register, whether it
takes part in data addressing, and the register pair. -/
abbrev pointerParts (s : State) (p : Ptr) (ramp : Byte) (port : BitVec 6) (ext : Bool) (low : Word) : Prop :=
  (p = .x ∧ ramp = s.rampx ∧ port = 0x39 ∧ ext = s.cfg.hasRampX ∧ low = s.pair 26) ∨
  (p = .y ∧ ramp = s.rampy ∧ port = 0x3A ∧ ext = s.cfg.hasRampY ∧ low = s.pair 28) ∨
  (p = .z ∧ ramp = s.rampz ∧ port = 0x3B ∧ ext = (s.cfg.hasRampZ && s.cfg.rampzForData) ∧ low = s.pair 30)

/-- R92: the width of an address: 24 bits with a RAMP register, else 16. -/
abbrev addressModulus (ext : Bool) : Nat := if ext then 2 ^ 24 else 2 ^ 16

/-- R92: `RAMP:low` with the RAMP register taking part, else `low`. -/
abbrev addressOf (ext : Bool) (ramp : Byte) (low : Word) : Nat := (if ext then ramp.toNat * 65536 else 0) + low.toNat

/-- LD Rd, P+. -/
def loadIncOf : Ptr → Reg → Instr
  | .x, d => .ldXInc d
  | .y, d => .ldYInc d
  | .z, d => .ldZInc d

/-- LD Rd, -P. -/
def loadDecOf : Ptr → Reg → Instr
  | .x, d => .ldXDec d
  | .y, d => .ldYDec d
  | .z, d => .ldZDec d

/-- ST P+, Rr. -/
def storeIncOf : Ptr → Reg → Instr
  | .x, r => .stXInc r
  | .y, r => .stYInc r
  | .z, r => .stZInc r

/-- ST -P, Rr. -/
def storeDecOf : Ptr → Reg → Instr
  | .x, r => .stXDec r
  | .y, r => .stYDec r
  | .z, r => .stZDec r

/-! ## The end of a run -/

/-- R347: the only final state: the run has been stopped by BREAK. -/
def isFinal (s : State) : Bool := s.run == .stopped

/-- The state reached by `n` steps, when none of them faults. -/
def State.after (s : State) (n : Nat) : Result State := Sys2Proof.core.run n s

end Sys2Proof.Machine
end

