-- ==== Sys2Proof/WellFormed.lean ====
section
/-! DEFINITION. Which instruction terms the encoding can express (spec/00_scope.md R11, spec/30_encoding.md R144). -/

namespace Sys2Proof

/-- Class Rdh, Rrh: R16 to R31. -/
def Reg.isHigh (r : Reg) : Bool := decide (16 ≤ r.toNat)

/-- Class Rdq, Rrq: R16 to R23. -/
def Reg.isQuarter (r : Reg) : Bool := decide (16 ≤ r.toNat) && decide (r.toNat ≤ 23)

/-- The low register of a pair is even (R31). -/
def Reg.isEven (r : Reg) : Bool := r.toNat % 2 == 0

/-- Class Rp: the low registers 24, 26, 28, 30 of the pairs of ADIW and SBIW. -/
def Reg.isPairLow (r : Reg) : Bool := decide (24 ≤ r.toNat) && r.isEven

namespace Instr

/-- The operands lie in their classes (R11, R144): exactly the terms that have an encoding. -/
def wellFormed : Instr → Bool
  | .movw d r => d.isEven && r.isEven
  | .muls d r => d.isHigh && r.isHigh
  | .mulsu d r => d.isQuarter && r.isQuarter
  | .fmul d r => d.isQuarter && r.isQuarter
  | .fmuls d r => d.isQuarter && r.isQuarter
  | .fmulsu d r => d.isQuarter && r.isQuarter
  | .cpi d _ => d.isHigh
  | .sbci d _ => d.isHigh
  | .subi d _ => d.isHigh
  | .ori d _ => d.isHigh
  | .andi d _ => d.isHigh
  | .ldi d _ => d.isHigh
  | .adiw d _ => d.isPairLow
  | .sbiw d _ => d.isPairLow
  | .nop | .cpc _ _ | .sbc _ _ | .add _ _ | .cpse _ _ | .cp _ _ | .sub _ _ | .adc _ _ | .and _ _ | .eor _ _ | .or _ _
  | .mov _ _ | .lddZ _ _ | .lddY _ _ | .stdZ _ _ | .stdY _ _ | .lds _ _ | .ldZInc _ | .ldZDec _ | .lpmZ _ | .lpmZInc _
  | .elpmZ _ | .elpmZInc _ | .ldYInc _ | .ldYDec _ | .ldX _ | .ldXInc _ | .ldXDec _ | .pop _ | .sts _ _ | .stZInc _
  | .stZDec _ | .xch _ | .las _ | .lac _ | .lat _ | .stYInc _ | .stYDec _ | .stX _ | .stXInc _ | .stXDec _ | .push _
  | .com _ | .neg _ | .swap _ | .inc _ | .asr _ | .lsr _ | .ror _ | .bset _ | .bclr _ | .ret | .reti | .sleep | .brk
  | .wdr | .lpm | .elpm | .spm | .spmZInc | .ijmp | .eijmp | .icall | .eicall | .dec _ | .des _ | .jmp _ | .call _
  | .cbi _ _ | .sbic _ _ | .sbi _ _ | .sbis _ _ | .mul _ _ | .inp _ _ | .out _ _ | .rjmp _ | .rcall _ | .brbs _ _
  | .brbc _ _ | .bld _ _ | .bst _ _ | .sbrc _ _ | .sbrs _ _ => true

end Instr

end Sys2Proof
end

