-- ==== Sys2Proof/Certificates/Slice0/Obligations.lean ====
section
/-! DEFINITION. The statements for the provers, in the order of OBLIGATIONS.json: encoding, the step and interrupts, faults,
reset and invariants, the data space and the stack, frames, and what each family of instructions does and when it
completes. -/

open Sys2Proof Sys2Proof.Machine

/-! ## Encoding -/

/-- R135, with the words of the examples of spec/40 to spec/47: sample words decode to the instructions they stand for. -/
def Obligations.SampleWordsDecode : Prop :=
  decodeWords 0x0F01 0 = some (.add 16 17) ∧ decodeWords 0x96DF 0 = some (.adiw 26 63) ∧
  decodeWords 0x03F6 0 = some (.fmuls 23 22) ∧ decodeWords 0x01CF 0 = some (.movw 24 30) ∧
  decodeWords 0x3840 0 = some (.cpi 20 0x80) ∧ decodeWords 0x9A2B 0 = some (.sbi 5 3) ∧
  decodeWords 0x9478 0 = some (.bset 7) ∧ decodeWords 0xB70F 0 = some (.inp 16 0x3F) ∧
  decodeWords 0xBC25 0 = some (.out 0x25 2) ∧ decodeWords 0xAD0F 0 = some (.lddY 16 63) ∧
  decodeWords 0x9020 0x0100 = some (.lds 2 0x0100) ∧ decodeWords 0x9300 0x0123 = some (.sts 0x0123 16) ∧
  decodeWords 0x93E2 0 = some (.stZDec 30) ∧ decodeWords 0x9105 0 = some (.lpmZInc 16) ∧
  decodeWords 0x95FD 0x1234 = some (.jmp 0x3F1234) ∧ decodeWords 0x940E 0x0456 = some (.call 0x0456) ∧
  decodeWords 0xCFFE 0 = some (.rjmp (-2)) ∧ decodeWords 0xF7F1 0 = some (.brbc 1 (-2)) ∧
  decodeWords 0x9B82 0 = some (.sbis 0x10 2) ∧ decodeWords 0x9304 0 = some (.xch 16) ∧
  decodeWords 0x94FB 0 = some (.des 15)

/-- R134: the rows of the opcode map are pairwise disjoint. -/
def Obligations.OpcodeRowsDisjoint : Prop :=
  opcodeMap.length = 97 ∧
  opcodeMap.Pairwise (fun p q => p.mask &&& q.mask &&& (p.pattern ^^^ q.pattern) ≠ 0) ∧
  ∀ (w : Word), ∀ p ∈ opcodeMap, ∀ q ∈ opcodeMap, p.selects w = true → q.selects w = true →
    p.mask = q.mask ∧ p.pattern = q.pattern

/-- Every well-formed instruction, laid out as its encoding and followed by any bytes, is what the decoder reads. -/
def Obligations.DecodeOfEncode : Prop :=
  ∀ (i : Instr) (rest : List Byte), i.wellFormed = true → decode (bytesOfWords (encode i) ++ rest) = .instr i rest

/-- Every word that decodes is the encoding of exactly the instruction read from it. -/
def Obligations.EncodeOfDecode : Prop :=
  ∀ (w k : Word) (i : Instr), decodeWords w k = some i →
    i.wellFormed = true ∧ encode i = if wordLength w = 2 then [w, k] else [w]

/-- R136, R137: each word of the two tables decodes to no instruction. -/
def Obligations.ReservedWordsRefused : Prop :=
  ∀ (w k : Word), isReserved w = true → decodeWords w k = none

/-- R137: a word that is in neither table is an instruction. -/
def Obligations.OtherWordsDecode : Prop :=
  ∀ (w k : Word), isReserved w = false → ∃ i, decodeWords w k = some i

/-- R120, R121: the two-word instructions are exactly LDS, STS, JMP and CALL, and the first word tells. -/
def Obligations.LengthByFirstWord : Prop :=
  ∀ (w k : Word) (i : Instr), decodeWords w k = some i →
    (wordLength w = 2 ↔ isTwoWords i = true) ∧ (wordLength w = 1 ↔ isTwoWords i = false) ∧
      (encode i).length = wordLength w

/-! ## The step and interrupts -/

/-- R336: at a running machine with no interrupt to take, a step runs the instruction that the bytes at the PC decode to,
with the hold-off cleared first. -/
def Obligations.StepRunsDecodedInstruction : Prop :=
  ∀ (s : State) (i : Instr) (w k : Word), s.run = .running → interruptDue s = none →
    progWord s.pc.toNat s = .next w → (wordLength w = 2 → progWord (s.nextPc 1) s = .next k) →
    (wordLength w = 1 → k = 0) → decodeWords w k = some i → step s = exec i (s.setHoldoff false)

/-- R90, R138: what stops a fetch: a word beyond the flash, a reserved word. -/
def Obligations.StepFetchFaults : Prop :=
  ∀ (s : State), s.run = .running → interruptDue s = none →
    (s.cfg.flashWords ≤ s.pc.toNat → step s = .fault (.fetchOutOfRange s.pc.toNat)) ∧
    ∀ w, progWord s.pc.toNat s = .next w →
      (isReserved w = true → step s = .fault (.reservedOpcode w)) ∧
      (wordLength w = 2 → s.cfg.flashWords ≤ s.nextPc 1 → step s = .fault (.fetchOutOfRange (s.nextPc 1)))

/-- R336, R345, R347: a stopped machine stays as it is, and a sleeping one leaves sleep only by taking an interrupt. That
"no step" and "no architectural change" are an unchanged next state is the model's choice (notes/assumptions/12.md). -/
def Obligations.StoppedAndSleepingMachines : Prop :=
  ∀ (s : State),
    (s.run = .stopped → step s = .next s) ∧
    (s.run = .sleeping → interruptDue s = none → step s = .next s) ∧
    (s.run = .sleeping → ∀ t, step s = .next t → t.run ≠ .sleeping →
      ∃ n, n ∈ pendingVectors s ∧ s.flag .I = true ∧ s.irqHoldoff = false ∧ takeInterrupt n s = .next t)

/-- R324, R325, R326: an interrupt is taken at a boundary exactly when I = 1, no hold-off stands and a source is pending,
and it is the pending source with the lowest vector number. How the pending set is held is the model's choice
(notes/assumptions/8.md). -/
def Obligations.LowestPendingInterruptTaken : Prop :=
  ∀ (s : State), s.run ≠ .stopped →
    (∀ n, s.flag .I = true → s.irqHoldoff = false → n ∈ pendingVectors s → (∀ m ∈ pendingVectors s, n ≤ m) →
      step s = takeInterrupt n s) ∧
    ((s.flag .I = false ∨ s.irqHoldoff = true ∨ pendingVectors s = []) → s.run = .running →
      step s = andThen (fetch s) fun i => exec i (s.setHoldoff false))

/-- R328: interrupt entry: the PC pushed as by a call, I cleared on every core but XMEGA, the core awake, the PC at the
vector, every other register, flag and memory kept. That the requests are a list in the state, and that the entry clears
request n exactly when `irqClearOnEntry` names it, is the model's choice (notes/assumptions/8.md). -/
def Obligations.InterruptEntry : Prop :=
  ∀ (s : State) (n : Nat), s.cfg.core ≠ .avr1 → s.cfg.irq = .reference → s.cfg.vectorAddr = .reference →
    stackInSram s →
    ∃ u t, pushPc s.pc s = .next u ∧ takeInterrupt n s = .next t ∧ t.sram = u.sram ∧ t.sp = u.sp ∧
      t.flag .I = (s.cfg.isXmega && s.flag .I) ∧ (∀ f, f ≠ .I → t.flag f = s.flag f) ∧
      t.pc = BitVec.ofNat 22 ((s.cfg.resetVector + n * s.cfg.vectorStride) % 2 ^ s.cfg.pcBits) ∧
      t.run = .running ∧ t.irqHoldoff = s.irqHoldoff ∧ (∀ r, t.reg r = s.reg r) ∧
      (t.rampx, t.rampy, t.rampz, t.rampd, t.eind) = (s.rampx, s.rampy, s.rampz, s.rampd, s.eind) ∧
      t.io = s.io ∧ t.flash = s.flash ∧ t.cfg = s.cfg ∧
      t.irqPending = if s.cfg.irqClearOnEntry.contains n then s.irqPending.filter (· != n) else s.irqPending

/-- R328, R295, R330: RETI after an interrupt entry is back at the interrupted instruction, with the stack pointer, the
registers and the flags as they were, I set and the hold-off armed. -/
def Obligations.InterruptThenReti : Prop :=
  ∀ (s t : State) (n : Nat), Invariant s → s.cfg.widthsOk = true → s.cfg.isXmega = false → s.cfg.irq = .reference →
    stackInSram s → takeInterrupt n s = .next t →
    ∃ u, exec .reti t = .next u ∧ u.pc = s.pc ∧ u.sp = s.sp ∧ u.flag .I = true ∧ u.irqHoldoff = true ∧
      (∀ f, f ≠ .I → u.flag f = s.flag f) ∧ (∀ r, u.reg r = s.reg r) ∧
      ∀ a, a ∉ callStores s → u.sramAt a = s.sramAt a

/-- R57, R326: an instruction that changes I from 0 to 1 arms the hold-off, and outside XMEGA nothing else does but RETI:
an instruction that arms it has changed I from 0 to 1. -/
def Obligations.HoldoffArmedBySettingI : Prop :=
  ∀ (i : Instr) (s t : State), s.cfg.widthsOk = true → s.irqHoldoff = false → exec i s = .next t →
    (s.flag .I = false → t.flag .I = true → t.irqHoldoff = true) ∧
    (s.cfg.isXmega = false → t.irqHoldoff = true → i ≠ .reti → s.flag .I = false ∧ t.flag .I = true)

/-! ## Faults of the instruction -/

/-- R138, R146, R63: an instruction that the configured machine lacks raises NotImplemented with its mnemonic, and only
such an instruction does. Which ones those are, by core level (R146, R267, R268, R309), option (R146, R258, R259, R310,
RAMPZ for ELPM, EIND for EIJMP and EICALL) and register number (R63: AVRtiny has no R0 to R15): one clause for each group
of instructions, all 97 among them. MOVW on AVRtiny and LPM on AVR1 are read as notes/assumptions/11.md says; RCALL, RET and
RETI on AVR1 as notes/assumptions/20.md says. -/
def Obligations.MissingInstructionFaults : Prop :=
  (∀ (i : Instr) (s : State) (m : String),
    exec i s = .fault (.notImplemented m) ↔ implements s.cfg i = false ∧ m = mnemonic i) ∧
  ∀ (s : State) (d r : Reg) (k : Byte) (w : Word) (a : BitVec 6) (a5 : BitVec 5) (b : BitVec 3) (q k6 : BitVec 6)
    (k7 : BitVec 7) (k12 : BitVec 12) (k22 : BitVec 22) (k4 : BitVec 4),
    let c := s.cfg
    (∀ i ∈ [.add d r, .adc d r, .sub d r, .sbc d r, .and d r, .or d r, .eor d r, .cp d r, .cpc d r, .cpse d r, .mov d r],
      s.lacks i ↔ lacksReg c d ∨ lacksReg c r) ∧
    (∀ i ∈ [.com d, .neg d, .swap d, .inc d, .dec d, .asr d, .lsr d, .ror d, .cpi d k, .sbci d k, .subi d k, .ori d k,
        .andi d k, .ldi d k, .bst d b, .bld d b, .sbrc d b, .sbrs d b, .inp d a, .out a d],
      s.lacks i ↔ lacksReg c d) ∧
    (∀ i ∈ [.nop, .sleep, .wdr, .bset b, .bclr b, .sbi a5 b, .cbi a5 b, .sbic a5 b, .sbis a5 b, .rjmp k12, .brbs b k7,
        .brbc b k7],
      ¬ s.lacks i) ∧
    (∀ i ∈ [.rcall k12, .icall, .ijmp, .ret, .reti], s.lacks i ↔ c.core = .avr1) ∧
    (∀ i ∈ [.ldX d, .ldXInc d, .ldXDec d, .ldYInc d, .ldYDec d, .ldZInc d, .ldZDec d, .stX d, .stXInc d, .stXDec d,
        .stYInc d, .stYDec d, .stZInc d, .stZDec d, .push d, .pop d],
      s.lacks i ↔ c.core = .avr1 ∨ lacksReg c d) ∧
    (∀ i ∈ [.lddZ d q, .stdZ q d], s.lacks i ↔ (q ≠ 0 ∧ c.core ∈ [.avr1, .avrTiny]) ∨ lacksReg c d) ∧
    (∀ i ∈ [.lddY d q, .stdY q d], s.lacks i ↔ c.core = .avr1 ∨ (q ≠ 0 ∧ c.core = .avrTiny) ∨ lacksReg c d) ∧
    (∀ i ∈ [.lds d w, .sts w d, .adiw d k6, .sbiw d k6], s.lacks i ↔ c.core ∈ [.avr1, .avrTiny]) ∧
    (∀ i ∈ [.movw d r, .lpmZ d, .lpmZInc d], s.lacks i ↔ c.core ∈ [.avr1, .avr2, .avr3, .avrTiny]) ∧
    (∀ i ∈ [.mul d r, .muls d r, .mulsu d r, .fmul d r, .fmuls d r, .fmulsu d r],
      s.lacks i ↔ c.core ∈ [.avr1, .avr2, .avr25, .avr3, .avrTiny]) ∧
    (∀ i ∈ [.jmp k22, .call k22], s.lacks i ↔ c.core ∈ [.avr1, .avr2, .avr25, .avr4, .avrTiny]) ∧
    (s.lacks .lpm ↔ c.core = .avrTiny ∨ (c.core = .avr1 ∧ c.avr1HasLpm = false)) ∧
    (s.lacks .elpm ↔ c.hasRampZ = false ∨ c.core ∉ [.avr3, .avr5, .avr6, .xmega, .xmegaRmw]) ∧
    (∀ i ∈ [.elpmZ d, .elpmZInc d], s.lacks i ↔ c.hasRampZ = false ∨ c.core ∉ [.avr5, .avr6, .xmega, .xmegaRmw]) ∧
    (s.lacks .brk ↔ c.hasBreak = false ∨ c.core ∉ [.avr5, .avr6, .xmega, .xmegaRmw, .avrTiny]) ∧
    (∀ i ∈ [.eijmp, .eicall], s.lacks i ↔ c.hasEind = false ∨ c.core ∉ [.avr6, .xmega, .xmegaRmw]) ∧
    (s.lacks .spm ↔ c.hasSpm = false ∨ c.core ∈ [.avr1, .avr2, .avr3, .avrTiny]) ∧
    (s.lacks .spmZInc ↔ c.hasSpm = false ∨ c.core ∉ [.xmega, .xmegaRmw]) ∧
    (s.lacks (.des k4) ↔ c.hasDes = false ∨ c.core ∉ [.xmega, .xmegaRmw]) ∧
    (∀ i ∈ [.xch d, .las d, .lac d, .lat d], s.lacks i ↔ c.core ≠ .xmegaRmw)

/-- R229, R256: an updating load or store whose data register is a byte of its pointer raises
UndefinedOperandCombination, carrying the instruction word. -/
def Obligations.UpdatedPointerOperandFaults : Prop :=
  ∀ (s : State) (i : Instr) (p : Ptr) (r : Reg), implements s.cfg i = true → r ∈ p.regs →
    (i = loadIncOf p r ∨ i = loadDecOf p r ∨ i = storeIncOf p r ∨ i = storeDecOf p r ∨
      (p = .z ∧ (i = .lpmZInc r ∨ i = .elpmZInc r))) →
    exec i s = .fault (.undefinedOperandCombination (firstWord i))

/-! ## Reset and invariants -/

/-- R62, R360: the core right after reset. -/
def Obligations.ResetState : Prop :=
  State.reset.pc = 0 ∧ State.reset.sreg = 0 ∧ State.reset.sp = 0x08FF ∧ State.reset.rampx = 0 ∧ State.reset.rampy = 0 ∧
  State.reset.rampz = 0 ∧ State.reset.rampd = 0 ∧ State.reset.eind = 0 ∧ State.reset.irqHoldoff = false ∧
  State.reset.run = .running ∧ State.reset.cfg = Config.reference ∧ Config.reference.wf = true ∧
  ∀ b, State.reset.flashAt b = 0xFF

/-- The state after reset, in any accepted configuration and with any program image that fits, meets the invariant. -/
def Obligations.ResetMeetsInvariant : Prop :=
  Invariant State.reset ∧
  ∀ (c : Config) (flash : Memory), Memory.wf Memory.flashByte flash → (∀ x ∈ flash, x.1 < 2 * c.flashWords) →
    Invariant (State.resetOf c flash)

/-- Every step keeps the invariant: the PC and the SP within their widths, segment registers within their implemented bits
and 0 where absent, the memories canonical and inside their ranges. -/
def Obligations.StepKeepsInvariant : Prop :=
  ∀ (s t : State), Invariant s → step s = .next t → Invariant t

/-- No step changes a parameter of the configuration, nor the list of requests of the reference `Irq` other than by
acknowledging an interrupt. Both are the model's choice: the configuration is a field that no step writes
(notes/assumptions/5.md), a request arrives from outside between steps (notes/assumptions/7.md), and the requests of the
reference `Irq` are a list in the state (notes/assumptions/8.md). Nothing is said of what a platform `Irq` answers. -/
def Obligations.StepKeepsConfiguration : Prop :=
  ∀ (s t : State), step s = .next t →
    t.cfg = s.cfg ∧ (∀ n ∈ t.irqPending, n ∈ s.irqPending) ∧ (interruptDue s = none → t.irqPending = s.irqPending)

/-- R106, R109, R375: with SPM refused, program memory never changes. -/
def Obligations.ProgramMemoryFixedWithoutSpm : Prop :=
  ∀ (s t : State), s.cfg.spmEffect = .reference → step s = .next t → t.flash = s.flash

/-- R360: a reset of a machine that has run puts the core registers at their reset values. That R0 to R31 and SRAM come
through it with their bytes is the model's choice and unsafe (notes/assumptions/21.md): R361 tells a program not to rely on
it. -/
def Obligations.WarmReset : Prop :=
  ∀ (s : State), s.afterReset.pc = BitVec.ofNat 22 (s.cfg.resetVector % 2 ^ s.cfg.pcBits) ∧ s.afterReset.sreg = 0 ∧
    s.afterReset.sp = BitVec.ofNat 16 (s.cfg.spReset % 2 ^ s.cfg.spBits) ∧ s.afterReset.rampx = 0 ∧
    s.afterReset.rampy = 0 ∧ s.afterReset.rampz = 0 ∧ s.afterReset.rampd = 0 ∧ s.afterReset.eind = 0 ∧
    s.afterReset.irqHoldoff = false ∧ s.afterReset.run = .running ∧ (∀ r, s.afterReset.reg r = s.reg r) ∧
    (∀ a, s.afterReset.sramAt a = s.sramAt a) ∧ ∀ b, s.afterReset.flashAt b = s.flashAt b

/-! ## The data space, the stack, program memory -/

/-- R88: a byte of SRAM written reads back, and every other byte of the data space reads as before. -/
def Obligations.SramReadAfterWrite : Prop :=
  ∀ (s : State) (a : Nat) (v : Byte), sramOk s → isSram s.cfg a = true →
    ∃ t, memWrite a v s = .next t ∧ t.dataByte a = some v ∧ (∀ b, b ≠ a → t.dataByte b = s.dataByte b) ∧
      memRead a t = .next (v, t)

/-- R81 to R85: in the ATMEGA and AVR1 maps data addresses 0 to 31 are the registers and 0x20 to 0x5F the I/O registers,
and the AVR1 map has nothing above; in the XMEGA and AVRtiny maps the I/O registers start at 0 and no address is a
register, and on XMEGA the device has the rest of the first 8 KiB, data flash included (R82, R102, read as
notes/assumptions/10.md says). That the map alone decides this, whatever the core, is the model's choice
(notes/assumptions/27.md). -/
def Obligations.RegistersAndIoInDataSpace : Prop :=
  ∀ (s : State) (v : Byte),
    let isIo := fun (n : Nat) (a : BitVec 6) => memRead n s = .next (ioRead a s) ∧ memWrite n v s = .next (ioWrite a v s)
    (s.cfg.memoryMap = .atmega ∨ s.cfg.memoryMap = .avr1 →
      (∀ r : Reg, memRead r.toNat s = .next (s.reg r, s) ∧ memWrite r.toNat v s = .next (s.setReg r v)) ∧
      ∀ a : BitVec 6, isIo (a.toNat + 0x20) a) ∧
    (s.cfg.memoryMap = .avr1 → ∀ n, 0x5F < n →
      memRead n s = .fault (.dataOutOfRange n) ∧ memWrite n v s = .fault (.dataOutOfRange n)) ∧
    (s.cfg.memoryMap = .xmega ∨ s.cfg.memoryMap = .avrTiny →
      (∀ a : BitVec 6, isIo a.toNat a) ∧ ∀ n r, place s.cfg n ≠ .register r) ∧
    (s.cfg.memoryMap = .xmega → ∀ n, 0x3F < n → n ≤ 0x1FFF →
      memRead n s = .next (deviceRead n s) ∧ memWrite n v s = .next (deviceWrite n v s))

/-- R47, R49: SREG, SP, EIND and the RAMP registers read and written at their I/O addresses; an address whose CPU register
is absent, and every address below 0x38, belongs to the device. A written segment register keeps its implemented bits,
all 8 unless the configuration says fewer: the refinement that D26 leaves open, read as notes/assumptions/17.md says. On
XMEGA a write of SPL holds interrupts (R58, read as notes/assumptions/16.md says). -/
def Obligations.CpuRegistersAsIo : Prop :=
  ∀ (s : State) (v : Byte),
    let atDevice := fun a : BitVec 6 => ioRead a s = deviceRead (a.toNat + ioBase s.cfg) s ∧
      ioWrite a v s = deviceWrite (a.toNat + ioBase s.cfg) v s
    (ioRead 0x3F s = (s.sreg, s) ∧ (ioWrite 0x3F v s).sreg = v) ∧
    (s.cfg.core ≠ .avr1 → s.cfg.spBits = 16 →
      ioRead 0x3D s = (s.sp.extractLsb' 0 8, s) ∧ ioRead 0x3E s = (s.sp.extractLsb' 8 8, s) ∧
      (ioWrite 0x3D v s).sp = s.sp.extractLsb' 8 8 ++ v ∧ (ioWrite 0x3E v s).sp = v ++ s.sp.extractLsb' 0 8) ∧
    (s.cfg.core ≠ .avr1 → s.cfg.spBits = 8 → spInRange s →
      ioRead 0x3D s = (s.sp.extractLsb' 0 8, s) ∧ (ioWrite 0x3D v s).sp = v.setWidth 16 ∧ atDevice 0x3E) ∧
    (s.cfg.core ≠ .avr1 → (ioWrite 0x3D v s).irqHoldoff = (s.irqHoldoff || s.cfg.isXmega)) ∧
    (s.cfg.core = .avr1 → atDevice 0x3D ∧ atDevice 0x3E) ∧
    (s.cfg.hasEind = true → ioRead 0x3C s = (s.eind, s) ∧ (ioWrite 0x3C v s).eind = maskBits s.cfg.eindBits v) ∧
    (s.cfg.hasRampZ = true → ioRead 0x3B s = (s.rampz, s) ∧ (ioWrite 0x3B v s).rampz = maskBits s.cfg.rampBits v) ∧
    (s.cfg.hasRampY = true → ioRead 0x3A s = (s.rampy, s) ∧ (ioWrite 0x3A v s).rampy = maskBits s.cfg.rampBits v) ∧
    (s.cfg.hasRampX = true → ioRead 0x39 s = (s.rampx, s) ∧ (ioWrite 0x39 v s).rampx = maskBits s.cfg.rampBits v) ∧
    (s.cfg.hasRampD = true → ioRead 0x38 s = (s.rampd, s) ∧ (ioWrite 0x38 v s).rampd = maskBits s.cfg.rampBits v) ∧
    (s.cfg.hasEind = false → atDevice 0x3C) ∧ (s.cfg.hasRampZ = false → atDevice 0x3B) ∧
    (s.cfg.hasRampY = false → atDevice 0x3A) ∧ (s.cfg.hasRampX = false → atDevice 0x39) ∧
    (s.cfg.hasRampD = false → atDevice 0x38) ∧ ∀ a : BitVec 6, a.toNat < 0x38 → atDevice a

/-- R89: in the ATMEGA map an address above RAMEND, or in the extended I/O range of a part without it and below RAMSTART,
faults for loads and stores. -/
def Obligations.UnmappedAddressFaults : Prop :=
  ∀ (s : State) (a : Nat) (v : Byte), s.cfg.memoryMap = .atmega → 0x60 ≤ a → (s.cfg.hasExtIo = true → 0x100 ≤ a) →
    (s.cfg.ramEnd < a ∨ a < s.cfg.ramStart) →
    memRead a s = .fault (.dataOutOfRange a) ∧ memWrite a v s = .fault (.dataOutOfRange a)

/-- R95, R93: where the bytes of a return address go, and SP after them. -/
def Obligations.ReturnAddressLayout : Prop :=
  ∀ (s : State) (r : BitVec 22), Invariant s → s.cfg.widthsOk = true → stackInSram s →
    ∃ t, pushPc r s = .next t ∧ t.sramAt (s.spMinus 0) = r.extractLsb' 0 8 ∧
      t.sramAt (s.spMinus 1) = r.extractLsb' 8 8 ∧
      (s.cfg.pcBits = 22 → t.sramAt (s.spMinus 2) = (r.extractLsb' 16 6).setWidth 8) ∧
      t.sp.toNat = s.spMinus (pcBytes s.cfg) ∧ (∀ a, a ∉ callStores s → t.sramAt a = s.sramAt a) ∧
      t = { s with sram := t.sram, sp := t.sp }

/-- R95: popping a return address just pushed gives it back, and SP where it was. -/
def Obligations.PopPcAfterPushPc : Prop :=
  ∀ (s t : State) (r : BitVec 22), Invariant s → s.cfg.widthsOk = true → stackInSram s → r.toNat < 2 ^ s.cfg.pcBits →
    pushPc r s = .next t →
    ∃ u, popPc t = .next (r.toNat, u) ∧ u.sp = s.sp ∧ (∀ a, a ∉ callStores s → u.sramAt a = s.sramAt a) ∧
      ∀ q, u.reg q = s.reg q

/-- R91: the byte at program byte address b is the low byte of word b >> 1 when b is even, its high byte when b is odd, and
a fault when that word is beyond the flash. -/
def Obligations.ProgramBytesOfWord : Prop :=
  ∀ (s : State) (b : Nat),
    (b >>> 1 < s.cfg.flashWords → ∃ x, progWord (b >>> 1) s = .next x ∧
      progByte b s = .next (if b % 2 = 0 then x.extractLsb' 0 8 else x.extractLsb' 8 8)) ∧
    (s.cfg.flashWords ≤ b >>> 1 → progByte b s = .fault (.progReadOutOfRange b))

/-! ## Frames -/

/-- R45, R98: an arithmetic or logic instruction changes its destination registers, its flags and the PC, no byte of memory
and nothing else. -/
def Obligations.ArithmeticFrame : Prop :=
  ∀ (i : Instr) (s t : State), family i = .arithmetic → exec i s = .next t →
    Frame (changes i s) s t ∧ (changes i s).stores = [] ∧ t.sram = s.sram ∧ t.io = s.io ∧ t.flash = s.flash

/-- A bit or system instruction changes what `changes` lists: one flag, one register, the byte of SBI and CBI, the run
state; XCH, LAS, LAC, LAT change Rd and the byte at Z; DES changes R0 to R15. -/
def Obligations.BitAndXmegaFrame : Prop :=
  ∀ (i : Instr) (s t : State), (family i = .bit ∨ family i = .xmega) → exec i s = .next t → Frame (changes i s) s t

/-- R98, R230, R92: a load, store, move, IN, OUT, PUSH, POP, LPM, ELPM or SPM changes what `changes` lists: the destination
register, the updated pointer (with its RAMP register only where that takes part in the address), SP, the byte at the address
it stores to, and for SPM what its platform function writes. -/
def Obligations.TransferFrame : Prop :=
  ∀ (i : Instr) (s t : State), (family i = .transfer ∨ family i = .programMemory) → exec i s = .next t →
    Frame (changes i s) s t

/-- A jump, a skip, a branch, a call and a return change the PC and, for calls and returns, the stack. -/
def Obligations.ControlFrame : Prop :=
  ∀ (i : Instr) (s t : State), (family i = .jump ∨ family i = .branch ∨ family i = .call) → exec i s = .next t →
    Frame (changes i s) s t

/-! ## Arithmetic and logic -/

/-- R160: the flags of an addition, in the arithmetic and in the boolean form of each, whatever the operands and the
carry; I and T are not changed. -/
def Obligations.AdditionFlagFormulas : Prop :=
  ∀ (sreg a b : Byte) (c : Bool),
    let r := addResult a b c
    let f := addFlags sreg a b c
    let v : Int := a.toInt + b.toInt + c.toNat
    r.toNat = (a.toNat + b.toNat + c.toNat) % 256 ∧
    getFlag f .H = decide (15 < a.toNat % 16 + b.toNat % 16 + c.toNat) ∧
    getFlag f .H = ((a.getLsbD 3 && b.getLsbD 3) || (b.getLsbD 3 && !r.getLsbD 3) || (!r.getLsbD 3 && a.getLsbD 3)) ∧
    getFlag f .C = decide (255 < a.toNat + b.toNat + c.toNat) ∧
    getFlag f .C = ((a.getLsbD 7 && b.getLsbD 7) || (b.getLsbD 7 && !r.getLsbD 7) || (!r.getLsbD 7 && a.getLsbD 7)) ∧
    getFlag f .V = decide (v < -128 ∨ 127 < v) ∧
    getFlag f .V = ((a.getLsbD 7 && b.getLsbD 7 && !r.getLsbD 7) || (!a.getLsbD 7 && !b.getLsbD 7 && r.getLsbD 7)) ∧
    getFlag f .N = r.getLsbD 7 ∧ getFlag f .Z = decide (r = 0) ∧ getFlag f .S = (getFlag f .N ^^ getFlag f .V) ∧
    getFlag f .T = getFlag sreg .T ∧ getFlag f .I = getFlag sreg .I

/-- R161: the flags of a subtraction, in the arithmetic and in the boolean form of each; I and T are not changed; with no
borrow in and no kept Z, C is unsigned less, S signed less, Z equal. -/
def Obligations.SubtractionFlagFormulas : Prop :=
  ∀ (sreg a b : Byte) (c k : Bool),
    let r := subResult a b c
    let f := subFlags sreg a b c k
    let v : Int := a.toInt - b.toInt - c.toNat
    (r.toNat : Int) = ((a.toNat : Int) - b.toNat - c.toNat) % 256 ∧
    getFlag f .H = decide (a.toNat % 16 < b.toNat % 16 + c.toNat) ∧
    getFlag f .H = ((!a.getLsbD 3 && b.getLsbD 3) || (b.getLsbD 3 && r.getLsbD 3) || (r.getLsbD 3 && !a.getLsbD 3)) ∧
    getFlag f .C = decide (a.toNat < b.toNat + c.toNat) ∧
    getFlag f .C = ((!a.getLsbD 7 && b.getLsbD 7) || (b.getLsbD 7 && r.getLsbD 7) || (r.getLsbD 7 && !a.getLsbD 7)) ∧
    getFlag f .V = decide (v < -128 ∨ 127 < v) ∧
    getFlag f .V = ((a.getLsbD 7 && !b.getLsbD 7 && !r.getLsbD 7) || (!a.getLsbD 7 && b.getLsbD 7 && r.getLsbD 7)) ∧
    getFlag f .N = r.getLsbD 7 ∧ getFlag f .Z = (decide (r = 0) && (!k || getFlag sreg .Z)) ∧
    getFlag f .S = (getFlag f .N ^^ getFlag f .V) ∧
    getFlag f .T = getFlag sreg .T ∧ getFlag f .I = getFlag sreg .I ∧
    (c = false → k = false → getFlag f .C = decide (a.toNat < b.toNat) ∧ getFlag f .S = decide (a.toInt < b.toInt) ∧
      getFlag f .Z = decide (a = b))

/-- R164, R165: ADD and ADC: the sum in Rd, the six flags, the PC one further. -/
def Obligations.AdditionResult : Prop :=
  ∀ (s : State) (d r : Reg) (i : Instr) (c : Bool), implements s.cfg i = true →
    (i = .add d r ∧ c = false ∨ i = .adc d r ∧ c = s.flag .C) →
    let a := s.reg d
    let b := s.reg r
    let v : Int := a.toInt + b.toInt + c.toNat
    ∃ t, exec i s = .next t ∧ t.pc = s.pcAfter 1 ∧ t.reg d = a + b + (BitVec.ofBool c).setWidth 8 ∧
      t.flag .H = decide (15 < a.toNat % 16 + b.toNat % 16 + c.toNat) ∧
      t.flag .C = decide (255 < a.toNat + b.toNat + c.toNat) ∧ t.flag .V = decide (v < -128 ∨ 127 < v) ∧
      t.flag .N = (t.reg d).getLsbD 7 ∧ t.flag .Z = (t.reg d == 0) ∧ t.flag .S = (t.flag .N ^^ t.flag .V) ∧
      t.flag .T = s.flag .T ∧ t.flag .I = s.flag .I

/-- R167 to R170, R180: SUB, SUBI, SBC, SBCI, NEG: the difference in Rd, the six flags (Z kept or cleared by SBC and SBCI),
the PC one further. -/
def Obligations.SubtractionResult : Prop :=
  ∀ (s : State) (d : Reg) (i : Instr) (a b : Byte) (c keep : Bool), implements s.cfg i = true →
    ((∃ r, i = .sub d r ∧ a = s.reg d ∧ b = s.reg r ∧ c = false ∧ keep = false) ∨
      (i = .subi d b ∧ a = s.reg d ∧ c = false ∧ keep = false) ∨
      (∃ r, i = .sbc d r ∧ a = s.reg d ∧ b = s.reg r ∧ c = s.flag .C ∧ keep = true) ∨
      (i = .sbci d b ∧ a = s.reg d ∧ c = s.flag .C ∧ keep = true) ∨
      (i = .neg d ∧ a = 0 ∧ b = s.reg d ∧ c = false ∧ keep = false)) →
    let v : Int := a.toInt - b.toInt - c.toNat
    ∃ t, exec i s = .next t ∧ t.pc = s.pcAfter 1 ∧ t.reg d = a - b - (BitVec.ofBool c).setWidth 8 ∧
      t.flag .H = decide (a.toNat % 16 < b.toNat % 16 + c.toNat) ∧ t.flag .C = decide (a.toNat < b.toNat + c.toNat) ∧
      t.flag .V = decide (v < -128 ∨ 127 < v) ∧ t.flag .N = (t.reg d).getLsbD 7 ∧
      t.flag .Z = (t.reg d == 0 && (!keep || s.flag .Z)) ∧ t.flag .S = (t.flag .N ^^ t.flag .V) ∧
      t.flag .T = s.flag .T ∧ t.flag .I = s.flag .I

/-- R182 to R184, R161: CP, CPC, CPI write the flags of the difference and no register; after CP and CPI C is unsigned less,
S signed less, Z equal. -/
def Obligations.ComparisonResult : Prop :=
  ∀ (s : State) (d : Reg) (i : Instr) (a b : Byte) (c keep : Bool), implements s.cfg i = true → a = s.reg d →
    ((∃ r, i = .cp d r ∧ b = s.reg r ∧ c = false ∧ keep = false) ∨
      (∃ r, i = .cpc d r ∧ b = s.reg r ∧ c = s.flag .C ∧ keep = true) ∨
      (i = .cpi d b ∧ c = false ∧ keep = false)) →
    ∃ t, exec i s = .next t ∧ t.pc = s.pcAfter 1 ∧ (∀ q, t.reg q = s.reg q) ∧
      t.flag .C = decide (a.toNat < b.toNat + c.toNat) ∧ t.flag .S = decide (a.toInt - b.toInt - c.toNat < 0) ∧
      t.flag .H = decide (a.toNat % 16 < b.toNat % 16 + c.toNat) ∧
      t.flag .Z = (a.toNat == (b.toNat + c.toNat) % 256 && (!keep || s.flag .Z)) ∧
      t.flag .N = (a - b - (BitVec.ofBool c).setWidth 8).getLsbD 7 ∧ t.flag .V = (t.flag .S ^^ t.flag .N) ∧
      t.flag .T = s.flag .T ∧ t.flag .I = s.flag .I

/-- R166, R171: ADIW and SBIW: the 16-bit result in the pair, S, V, N, Z, C; C is the wrap of the sum or the borrow. -/
def Obligations.WordArithmeticResult : Prop :=
  ∀ (s : State) (d : Reg) (k : BitVec 6),
    (implements s.cfg (.adiw d k) = true → ∃ t, exec (.adiw d k) s = .next t ∧ t.pc = s.pcAfter 1 ∧
      t.pair d = s.pair d + k.setWidth 16 ∧ t.flag .C = decide (65536 ≤ (s.pair d).toNat + k.toNat) ∧
      t.flag .V = decide (32767 < (s.pair d).toInt + k.toNat) ∧ t.flag .N = (t.pair d).getLsbD 15 ∧
      t.flag .Z = (t.pair d == 0) ∧ t.flag .S = (t.flag .N ^^ t.flag .V) ∧ t.flag .H = s.flag .H) ∧
    (implements s.cfg (.sbiw d k) = true → ∃ t, exec (.sbiw d k) s = .next t ∧ t.pc = s.pcAfter 1 ∧
      t.pair d = s.pair d - k.setWidth 16 ∧ t.flag .C = decide ((s.pair d).toNat < k.toNat) ∧
      t.flag .V = decide ((s.pair d).toInt - k.toNat < -32768) ∧ t.flag .N = (t.pair d).getLsbD 15 ∧
      t.flag .Z = (t.pair d == 0) ∧ t.flag .S = (t.flag .N ^^ t.flag .V) ∧ t.flag .H = s.flag .H)

/-- R172, R173: INC and DEC: C and H are kept. -/
def Obligations.IncrementResult : Prop :=
  ∀ (s : State) (d : Reg),
    (implements s.cfg (.inc d) = true → ∃ t, exec (.inc d) s = .next t ∧ t.pc = s.pcAfter 1 ∧ t.reg d = s.reg d + 1 ∧
      t.flag .V = (s.reg d == 0x7F) ∧ t.flag .N = (t.reg d).getLsbD 7 ∧ t.flag .Z = (t.reg d == 0) ∧
      t.flag .S = (t.flag .N ^^ t.flag .V) ∧ t.flag .C = s.flag .C ∧ t.flag .H = s.flag .H) ∧
    (implements s.cfg (.dec d) = true → ∃ t, exec (.dec d) s = .next t ∧ t.pc = s.pcAfter 1 ∧ t.reg d = s.reg d - 1 ∧
      t.flag .V = (s.reg d == 0x80) ∧ t.flag .N = (t.reg d).getLsbD 7 ∧ t.flag .Z = (t.reg d == 0) ∧
      t.flag .S = (t.flag .N ^^ t.flag .V) ∧ t.flag .C = s.flag .C ∧ t.flag .H = s.flag .H)

/-- R162, R174 to R179: AND, ANDI, OR, ORI, EOR, COM: the result bit by bit, V = 0, S = N, and C kept (set by COM). -/
def Obligations.LogicResult : Prop :=
  ∀ (s : State) (d : Reg) (i : Instr) (f : Bool → Bool → Bool) (b : Byte) (c : Bool), implements s.cfg i = true →
    ((∃ r, i = .and d r ∧ b = s.reg r ∧ f = (· && ·) ∧ c = s.flag .C) ∨ (i = .andi d b ∧ f = (· && ·) ∧ c = s.flag .C) ∨
      (∃ r, i = .or d r ∧ b = s.reg r ∧ f = (· || ·) ∧ c = s.flag .C) ∨ (i = .ori d b ∧ f = (· || ·) ∧ c = s.flag .C) ∨
      (∃ r, i = .eor d r ∧ b = s.reg r ∧ f = (· ^^ ·) ∧ c = s.flag .C) ∨
      (i = .com d ∧ f = (fun x _ => !x) ∧ c = true)) →
    ∃ t, exec i s = .next t ∧ t.pc = s.pcAfter 1 ∧
      (∀ j, j < 8 → (t.reg d).getLsbD j = f ((s.reg d).getLsbD j) (b.getLsbD j)) ∧ t.flag .V = false ∧
      t.flag .N = (t.reg d).getLsbD 7 ∧ t.flag .S = t.flag .N ∧ t.flag .Z = (t.reg d == 0) ∧ t.flag .C = c ∧
      t.flag .H = s.flag .H ∧ t.flag .T = s.flag .T ∧ t.flag .I = s.flag .I

/-- R163, R185 to R188: LSR, ROR, ASR shift one place right, bit 0 into C; SWAP exchanges the halves and keeps all flags. -/
def Obligations.ShiftResult : Prop :=
  ∀ (s : State) (d : Reg),
    (∀ (i : Instr) (top : Bool), implements s.cfg i = true →
      (i = .lsr d ∧ top = false ∨ i = .ror d ∧ top = s.flag .C ∨ i = .asr d ∧ top = (s.reg d).getLsbD 7) →
      ∃ t, exec i s = .next t ∧ t.pc = s.pcAfter 1 ∧
        (t.reg d).toNat = (s.reg d).toNat / 2 + 128 * top.toNat ∧ t.flag .C = (s.reg d).getLsbD 0 ∧ t.flag .N = top ∧
        t.flag .N = (t.reg d).getLsbD 7 ∧ t.flag .Z = (t.reg d == 0) ∧ t.flag .V = (t.flag .N ^^ t.flag .C) ∧
        t.flag .S = (t.flag .N ^^ t.flag .V) ∧ t.flag .H = s.flag .H ∧ t.flag .T = s.flag .T ∧ t.flag .I = s.flag .I) ∧
    (implements s.cfg (.swap d) = true → ∃ t, exec (.swap d) s = .next t ∧ t.pc = s.pcAfter 1 ∧
      (t.reg d).toNat = (s.reg d).toNat % 16 * 16 + (s.reg d).toNat / 16 ∧ t.sreg = s.sreg)

/-- R189 to R195: the six multiplications: the product, or the product shifted left by one, in R1:R0, whatever d and r are;
C is bit 15 of the product, Z the zero of what is written. -/
def Obligations.MultiplicationResult : Prop :=
  ∀ (s : State) (d r : Reg) (i : Instr) (p : Int) (sh : Nat), implements s.cfg i = true →
    ((i = .mul d r ∧ p = (s.reg d).toNat * (s.reg r).toNat ∧ sh = 0) ∨
      (i = .muls d r ∧ p = (s.reg d).toInt * (s.reg r).toInt ∧ sh = 0) ∨
      (i = .mulsu d r ∧ p = (s.reg d).toInt * (s.reg r).toNat ∧ sh = 0) ∨
      (i = .fmul d r ∧ p = (s.reg d).toNat * (s.reg r).toNat ∧ sh = 1) ∨
      (i = .fmuls d r ∧ p = (s.reg d).toInt * (s.reg r).toInt ∧ sh = 1) ∨
      (i = .fmulsu d r ∧ p = (s.reg d).toInt * (s.reg r).toNat ∧ sh = 1)) →
    ∃ t, exec i s = .next t ∧ t.pc = s.pcAfter 1 ∧ t.pair 0 = BitVec.ofInt 16 (p * 2 ^ sh) ∧
      t.flag .C = (BitVec.ofInt 16 p).getLsbD 15 ∧ t.flag .Z = (t.pair 0 == 0) ∧
      ∀ f, f ≠ .C → f ≠ .Z → t.flag f = s.flag f

/-! ## Bits, I/O bits and system instructions -/

/-- R200, R201, R204, R205: BSET, BCLR, BST, BLD. -/
def Obligations.FlagBitResult : Prop :=
  ∀ (s : State) (b : BitVec 3) (d : Reg),
    (∃ t, exec (.bset b) s = .next t ∧ t.pc = s.pcAfter 1 ∧ t.flag (flagOfBit b) = true ∧
      t.irqHoldoff = (s.irqHoldoff || (b == 7 && !s.flag .I))) ∧
    (∃ t, exec (.bclr b) s = .next t ∧ t.pc = s.pcAfter 1 ∧ t.flag (flagOfBit b) = false) ∧
    (implements s.cfg (.bst d b) = true → ∃ t, exec (.bst d b) s = .next t ∧ t.pc = s.pcAfter 1 ∧
      t.flag .T = (s.reg d).getLsbD b.toNat) ∧
    (implements s.cfg (.bld d b) = true → ∃ t, exec (.bld d b) s = .next t ∧ t.pc = s.pcAfter 1 ∧
      ∀ j, j < 8 → (t.reg d).getLsbD j = if j = b.toNat then s.flag .T else (s.reg d).getLsbD j)

/-- R202, R203: SBI and CBI change one bit of an I/O register of the reference device; they complete on every machine. -/
def Obligations.IoBitResult : Prop :=
  ∀ (s : State) (a : BitVec 5) (b : BitVec 3) (i : Instr) (v : Bool),
    (i = .sbi a b ∧ v = true ∨ i = .cbi a b ∧ v = false) →
    ∃ t, exec i s = .next t ∧ t.pc = s.pcAfter 1 ∧
      (s.cfg.ioDevice = .reference → ioOk s → ∀ j, j < 8 →
        (t.ioAt (a.toNat + ioBase s.cfg)).getLsbD j =
          if j = b.toNat then v else (s.ioAt (a.toNat + ioBase s.cfg)).getLsbD j)

/-- R206 to R209: NOP, WDR, SLEEP, BREAK. With the reference SleepEnabled, which is always true, SLEEP puts the core to
sleep. -/
def Obligations.SystemResult : Prop :=
  ∀ (s : State),
    exec .nop s = .next (s.advance 1) ∧
    (∃ t, exec .wdr s = .next t ∧ t.pc = s.pcAfter 1 ∧ t.run = s.run ∧
      (s.cfg.ioDevice = .reference → t = s.advance 1)) ∧
    (∃ t, exec .sleep s = .next t ∧ t.pc = s.pcAfter 1 ∧
      t.run = (if sleepEnabled s = true then .sleeping else s.run) ∧
      (s.cfg.sleepEnabled = .reference → t.run = .sleeping)) ∧
    (implements s.cfg .brk = true →
      (s.cfg.breakMode = .stop → ∃ t, exec .brk s = .next t ∧ t.pc = s.pc ∧ t.run = .stopped ∧ isFinal t = true) ∧
      (s.cfg.breakMode = .nop → exec .brk s = .next (s.advance 1)))

/-! ## Transfers -/

/-- R215 to R219: MOV, MOVW, LDI, IN, OUT; IN and OUT are one access of the I/O space (R86, R87) and nothing else. -/
def Obligations.MoveResult : Prop :=
  ∀ (s : State) (d r : Reg) (k : Byte) (a : BitVec 6),
    (implements s.cfg (.mov d r) = true → ∃ t, exec (.mov d r) s = .next t ∧ t.pc = s.pcAfter 1 ∧ t.reg d = s.reg r) ∧
    (implements s.cfg (.movw d r) = true → ∃ t, exec (.movw d r) s = .next t ∧ t.pc = s.pcAfter 1 ∧
      t.reg d = s.reg r ∧ t.reg (d + 1) = s.reg (r + 1)) ∧
    (implements s.cfg (.ldi d k) = true → ∃ t, exec (.ldi d k) s = .next t ∧ t.pc = s.pcAfter 1 ∧ t.reg d = k) ∧
    (implements s.cfg (.inp d a) = true → ∃ t, exec (.inp d a) s = .next t ∧ t.pc = s.pcAfter 1 ∧
      t.reg d = (ioRead a s).1 ∧ t = ((ioRead a s).2.setReg d (ioRead a s).1).advance 1) ∧
    (implements s.cfg (.out a r) = true → ∃ t, exec (.out a r) s = .next t ∧ t.pc = s.pcAfter 1 ∧
      t = (ioWrite a (s.reg r) s).advance 1 ∧ (a = 0x3F → t.sreg = s.reg r))

/-- R224, R225, R228, R92: LDS, LD X, LDD Y+q, LDD Z+q read the byte at their address and complete wherever the address is
mapped. The address is RAMPD:k, RAMPX:X, RAMPY:Y + q or RAMPZ:Z + q modulo 2^24 where the RAMP register takes part, else the
16-bit value, with + q modulo 2^16. -/
def Obligations.LoadResult : Prop :=
  ∀ (s : State) (d : Reg) (k : Word) (q : BitVec 6) (i : Instr) (a n : Nat), implements s.cfg i = true →
    (i = .lds d k ∧ a = (if s.cfg.hasRampD then s.rampd.toNat * 65536 else 0) + k.toNat ∧ n = 2 ∨
      i = .ldX d ∧ a = (if s.cfg.hasRampX then s.rampx.toNat * 65536 else 0) + (s.pair 26).toNat ∧ n = 1 ∨
      i = .lddY d q ∧ a = (if s.cfg.hasRampY then (s.rampy.toNat * 65536 + (s.pair 28).toNat + q.toNat) % 2 ^ 24
        else ((s.pair 28).toNat + q.toNat) % 2 ^ 16) ∧ n = 1 ∨
      i = .lddZ d q ∧ a = (if s.cfg.hasRampZ && s.cfg.rampzForData then
        (s.rampz.toNat * 65536 + (s.pair 30).toNat + q.toNat) % 2 ^ 24
        else ((s.pair 30).toNat + q.toNat) % 2 ^ 16) ∧ n = 1) →
    (mapped s.cfg a = true → ∃ t, exec i s = .next t ∧ t.pc = s.pcAfter n ∧ some (t.reg d) = s.dataByte a) ∧
    (place s.cfg a = .nothing → exec i s = .fault (.dataOutOfRange a))

/-- R226, R227, R92: LD with post-increment and pre-decrement: the byte at the old or the decremented pointer, the pointer
written back, its RAMP register with it where that takes part in the address and otherwise left alone. The written RAMP
register keeps its implemented bits (notes/assumptions/17.md); with all 8 implemented it holds bits 23:16 of the pointer. A
data register that is a byte of the pointer is in UpdatedPointerOperandFaults. -/
def Obligations.LoadUpdateResult : Prop :=
  ∀ (s : State) (p : Ptr) (d : Reg) (i : Instr) (ramp : Byte) (port : BitVec 6) (ext : Bool) (low : Word) (a new : Nat),
    implements s.cfg i = true → d ∉ p.regs → pointerParts s p ramp port ext low →
    (i = loadIncOf p d ∧ a = addressOf ext ramp low ∧ new = (a + 1) % addressModulus ext ∨
      i = loadDecOf p d ∧ a = (addressOf ext ramp low + (addressModulus ext - 1)) % addressModulus ext ∧ new = a) →
    (mapped s.cfg a = true → ∃ t, exec i s = .next t ∧ t.pc = s.pcAfter 1 ∧ some (t.reg d) = s.dataByte a ∧
      t.pair p.lo = BitVec.ofNat 16 new ∧
      (ext = true → (p.ramp t).toNat = new / 65536 % 2 ^ s.cfg.rampBits) ∧
      (ext = true → s.cfg.rampBits = 8 → (p.ramp t).toNat = new / 65536) ∧
      (ext = false → p.ramp t = ramp)) ∧
    (place s.cfg a = .nothing → exec i s = .fault (.dataOutOfRange a))

/-- R231, R232, R235, R92: STS, ST X, STD Y+q, STD Z+q write the byte at their address, formed as a load's, and complete
wherever the address is mapped; a byte stored at a CPU register is what that register then holds, of a segment register its
implemented bits (R49; notes/assumptions/17.md). -/
def Obligations.StoreResult : Prop :=
  ∀ (s : State) (r : Reg) (k : Word) (q : BitVec 6) (i : Instr) (a n : Nat), Invariant s → implements s.cfg i = true →
    (i = .sts k r ∧ a = (if s.cfg.hasRampD then s.rampd.toNat * 65536 else 0) + k.toNat ∧ n = 2 ∨
      i = .stX r ∧ a = (if s.cfg.hasRampX then s.rampx.toNat * 65536 else 0) + (s.pair 26).toNat ∧ n = 1 ∨
      i = .stdY q r ∧ a = (if s.cfg.hasRampY then (s.rampy.toNat * 65536 + (s.pair 28).toNat + q.toNat) % 2 ^ 24
        else ((s.pair 28).toNat + q.toNat) % 2 ^ 16) ∧ n = 1 ∨
      i = .stdZ q r ∧ a = (if s.cfg.hasRampZ && s.cfg.rampzForData then
        (s.rampz.toNat * 65536 + (s.pair 30).toNat + q.toNat) % 2 ^ 24
        else ((s.pair 30).toNat + q.toNat) % 2 ^ 16) ∧ n = 1) →
    (mapped s.cfg a = true → ∃ t, exec i s = .next t ∧ t.pc = s.pcAfter n ∧
      (plainByte s a = true → t.dataByte a = some (s.reg r)) ∧ heldByCpuRegister s t a (s.reg r) ∧
      heldBySp s t a (s.reg r)) ∧
    (place s.cfg a = .nothing → exec i s = .fault (.dataOutOfRange a))

/-- R233, R234, R230, R92: ST with post-increment and pre-decrement: the byte written first, the pointer written back last,
its RAMP register with it where that takes part in the address and otherwise left to the store alone. The written RAMP
register keeps its implemented bits (notes/assumptions/17.md); with all 8 implemented it holds bits 23:16 of the pointer. A
data register that is a byte of the pointer is in UpdatedPointerOperandFaults. -/
def Obligations.StoreUpdateResult : Prop :=
  ∀ (s : State) (p : Ptr) (r : Reg) (i : Instr) (ramp : Byte) (port : BitVec 6) (ext : Bool) (low : Word) (a new : Nat),
    Invariant s → implements s.cfg i = true → r ∉ p.regs → pointerParts s p ramp port ext low →
    (i = storeIncOf p r ∧ a = addressOf ext ramp low ∧ new = (a + 1) % addressModulus ext ∨
      i = storeDecOf p r ∧ a = (addressOf ext ramp low + (addressModulus ext - 1)) % addressModulus ext ∧ new = a) →
    (mapped s.cfg a = true → ∃ t, exec i s = .next t ∧ t.pc = s.pcAfter 1 ∧ t.pair p.lo = BitVec.ofNat 16 new ∧
      (ext = true → (p.ramp t).toNat = new / 65536 % 2 ^ s.cfg.rampBits) ∧
      (ext = true → s.cfg.rampBits = 8 → (p.ramp t).toNat = new / 65536) ∧
      (ext = false → place s.cfg a ≠ .io port → p.ramp t = ramp) ∧
      (plainByte s a = true → (∀ g ∈ p.regs, place s.cfg a ≠ .register g) → t.dataByte a = some (s.reg r)) ∧
      (ext = false ∨ place s.cfg a ≠ .io port → heldByCpuRegister s t a (s.reg r)) ∧ heldBySp s t a (s.reg r)) ∧
    (place s.cfg a = .nothing → exec i s = .fault (.dataOutOfRange a))

/-- R221, R222, R93, R94: PUSH stores at SP and decrements, POP increments and reads at the new SP. A byte pushed onto SREG,
EIND or a RAMP register is what that register then holds (of a segment register its implemented bits,
notes/assumptions/17.md); a byte pushed onto SPL or SPH is lost, because the decremented SP is written last (R93). -/
def Obligations.PushPopResult : Prop :=
  ∀ (s : State) (r : Reg), Invariant s → s.cfg.widthsOk = true →
    (implements s.cfg (.push r) = true →
      (mapped s.cfg (s.spMinus 0) = true → ∃ t, exec (.push r) s = .next t ∧ t.pc = s.pcAfter 1 ∧
        t.sp.toNat = s.spMinus 1 ∧ (plainByte s (s.spMinus 0) = true → t.dataByte (s.spMinus 0) = some (s.reg r)) ∧
        heldByCpuRegister s t (s.spMinus 0) (s.reg r)) ∧
      (place s.cfg (s.spMinus 0) = .nothing → exec (.push r) s = .fault (.dataOutOfRange (s.spMinus 0)))) ∧
    (implements s.cfg (.pop r) = true →
      (mapped s.cfg (s.spPlus 1) = true → ∃ t, exec (.pop r) s = .next t ∧ t.pc = s.pcAfter 1 ∧
        t.sp.toNat = s.spPlus 1 ∧ some (t.reg r) = (s.setSp (s.spPlus 1)).dataByte (s.spPlus 1)) ∧
      (place s.cfg (s.spPlus 1) = .nothing → exec (.pop r) s = .fault (.dataOutOfRange (s.spPlus 1))))

/-! ## Program memory -/

/-- R250 to R255: LPM and ELPM: the byte at Z or RAMPZ:Z, the pointer of the Z+ forms one further (with RAMPZ for ELPM only),
and the fault beyond the flash. RAMPZ keeps its implemented bits (notes/assumptions/17.md); with all 8 implemented RAMPZ:Z is
one further modulo 2^24. A data register that is a byte of Z is in UpdatedPointerOperandFaults for the Z+ forms. -/
def Obligations.ProgramLoadResult : Prop :=
  ∀ (s : State) (d : Reg) (i : Instr) (b : Nat), implements s.cfg i = true →
    ((i = .lpm ∧ d = 0 ∨ i = .lpmZ d ∨ i = .lpmZInc d ∧ d ∉ Ptr.z.regs) ∧ b = (s.pair 30).toNat ∨
      (i = .elpm ∧ d = 0 ∨ i = .elpmZ d ∨ i = .elpmZInc d ∧ d ∉ Ptr.z.regs) ∧ b = s.rampz.toNat * 65536 + (s.pair 30).toNat) →
    (b / 2 < s.cfg.flashWords → ∃ t, exec i s = .next t ∧ t.pc = s.pcAfter 1 ∧ t.reg d = s.flashAt b ∧
      (i = .lpmZInc d → t.pair 30 = s.pair 30 + 1 ∧ t.rampz = s.rampz) ∧
      (i = .elpmZInc d → t.pair 30 = BitVec.ofNat 16 (b + 1) ∧
        t.rampz = maskBits s.cfg.rampBits (BitVec.ofNat 8 ((b + 1) / 65536)) ∧
        (s.cfg.rampBits = 8 → t.rampz.toNat * 65536 + (t.pair 30).toNat = (b + 1) % 2 ^ 24))) ∧
    (s.cfg.flashWords ≤ b / 2 → exec i s = .fault (.progReadOutOfRange b))

/-- R258, R259: SPM and SPM Z+ are refused by the reference SpmEffect and complete with a platform's: program memory, the
device storage and the platform's state become what it says of them, RAMPZ:Z and R1:R0, RAMPZ being 0 where it is absent. Z is
kept by SPM and two further in the Z+ form. That the effect is an opaque function which lists the bytes it writes, in order,
that bytes beyond the flash are dropped, and that an opaque constant says whether SPM Z+ carries into RAMPZ, is the model's
choice (notes/assumptions/9.md). -/
def Obligations.SpmResult : Prop :=
  ∀ (s : State),
    let e := Config.platformSpm s.flash s.io s.platform ((if s.cfg.hasRampZ then s.rampz else 0) ++ s.pair 30)
      (s.reg 1 ++ s.reg 0)
    let written := fun t : State =>
      t.flash = (e.flashWrites.filter fun c => decide (c.1 < 2 * s.cfg.flashWords)).foldl
        (fun m c => Memory.write Memory.flashByte m c.1 c.2) s.flash ∧
      t.io = e.ioWrites.foldl (fun m c => Memory.write Memory.ioByte m c.1 c.2) s.io ∧ t.platform = e.platform
    (implements s.cfg .spm = true →
      (s.cfg.spmEffect = .reference → exec .spm s = .fault .spmNotModelled) ∧
      (s.cfg.spmEffect = .platform → ∃ t, exec .spm s = .next t ∧ t.pc = s.pcAfter 1 ∧ t.pair 30 = s.pair 30 ∧
        t.rampz = s.rampz ∧ written t)) ∧
    (implements s.cfg .spmZInc = true →
      (s.cfg.spmEffect = .reference → exec .spmZInc s = .fault .spmNotModelled) ∧
      (s.cfg.spmEffect = .platform → ∃ t, exec .spmZInc s = .next t ∧ t.pc = s.pcAfter 1 ∧
        t.pair 30 = s.pair 30 + 2 ∧ written t ∧
        t.rampz = if s.cfg.hasRampZ && Config.spmCarriesIntoRampz then
          maskBits s.cfg.rampBits (BitVec.ofNat 8 ((s.rampz.toNat * 65536 + (s.pair 30).toNat + 2) / 65536))
          else s.rampz))

/-! ## Control flow -/

/-- R265 to R269, R281, R282: jumps and conditional branches set the PC to their target and never fault. -/
def Obligations.JumpBranchResult : Prop :=
  ∀ (s : State) (k12 : BitVec 12) (k22 : BitVec 22) (k7 : BitVec 7) (b : BitVec 3),
    (∃ t, exec (.rjmp k12) s = .next t ∧ t.pc = s.pcRelative k12.toInt) ∧
    (implements s.cfg .ijmp = true → ∃ t, exec .ijmp s = .next t ∧
      t.pc = BitVec.ofNat 22 ((s.pair 30).toNat % 2 ^ s.cfg.pcBits)) ∧
    (implements s.cfg .eijmp = true → ∃ t, exec .eijmp s = .next t ∧
      t.pc = BitVec.ofNat 22 ((s.eind.toNat * 65536 + (s.pair 30).toNat) % 2 ^ s.cfg.pcBits)) ∧
    (implements s.cfg (.jmp k22) = true → ∃ t, exec (.jmp k22) s = .next t ∧
      t.pc = BitVec.ofNat 22 (k22.toNat % 2 ^ s.cfg.pcBits)) ∧
    (∃ t, exec (.brbs b k7) s = .next t ∧
      t.pc = if s.flag (flagOfBit b) then s.pcRelative k7.toInt else s.pcAfter 1) ∧
    (∃ t, exec (.brbc b k7) s = .next t ∧
      t.pc = if s.flag (flagOfBit b) then s.pcAfter 1 else s.pcRelative k7.toInt)

/-- R275 to R280: the five skips: past the next instruction, one or two words as its first word tells, when the test holds;
to the next instruction otherwise; a skip over a word beyond the flash faults. -/
def Obligations.SkipResult : Prop :=
  ∀ (s : State) (d r : Reg) (a : BitVec 5) (b : BitVec 3) (i : Instr) (cond : Bool), implements s.cfg i = true →
    (i = .cpse d r ∧ cond = (s.reg d == s.reg r) ∨ i = .sbrc r b ∧ cond = !(s.reg r).getLsbD b.toNat ∨
      i = .sbrs r b ∧ cond = (s.reg r).getLsbD b.toNat ∨
      i = .sbic a b ∧ cond = !(ioRead (a.setWidth 6) s).1.getLsbD b.toNat ∨
      i = .sbis a b ∧ cond = (ioRead (a.setWidth 6) s).1.getLsbD b.toNat) →
    (cond = false → ∃ t, exec i s = .next t ∧ t.pc = s.pcAfter 1) ∧
    (cond = true → ∀ w, progWord ((s.pc.toNat + 1) % 2 ^ s.cfg.pcBits) s = .next w →
      ∃ t, exec i s = .next t ∧ t.pc = s.pcAfter (1 + wordLength w)) ∧
    (cond = true → s.cfg.flashWords ≤ (s.pc.toNat + 1) % 2 ^ s.cfg.pcBits →
      exec i s = .fault (.fetchOutOfRange ((s.pc.toNat + 1) % 2 ^ s.cfg.pcBits)))

/-- R290 to R293: the calls push the address of the following instruction, lower SP by two or three and set the PC to the
target formed before the pushes; they complete wherever the stack is mapped. -/
def Obligations.CallResult : Prop :=
  ∀ (s : State) (k12 : BitVec 12) (k22 : BitVec 22) (i : Instr) (target n : Nat), Invariant s → s.cfg.widthsOk = true →
    implements s.cfg i = true →
    (i = .rcall k12 ∧ target = (s.pcRelative k12.toInt).toNat ∧ n = 1 ∨ i = .icall ∧ target = (s.pair 30).toNat ∧ n = 1 ∨
      i = .eicall ∧ target = s.eind.toNat * 65536 + (s.pair 30).toNat ∧ n = 1 ∨
      i = .call k22 ∧ target = k22.toNat ∧ n = 2) →
    (∀ a ∈ callStores s, mapped s.cfg a = true) →
    ∃ t, exec i s = .next t ∧ t.pc = BitVec.ofNat 22 (target % 2 ^ s.cfg.pcBits) ∧
      t.sp.toNat = s.spMinus (pcBytes s.cfg) ∧
      (stackInSram s → t.sramAt (s.spMinus 0) = (s.pcAfter n).extractLsb' 0 8 ∧
        t.sramAt (s.spMinus 1) = (s.pcAfter n).extractLsb' 8 8 ∧
        (s.cfg.pcBits = 22 → t.sramAt (s.spMinus 2) = ((s.pcAfter n).extractLsb' 16 6).setWidth 8))

/-- R294, R295: RET and RETI pop the PC, most significant byte first; RETI sets I except on XMEGA and arms the hold-off;
both complete wherever the stack is mapped. -/
def Obligations.ReturnResult : Prop :=
  ∀ (s : State) (i : Instr), Invariant s → s.cfg.widthsOk = true → implements s.cfg i = true → (i = .ret ∨ i = .reti) →
    (∀ a ∈ popAddresses s, mapped s.cfg a = true) →
    ∃ t, exec i s = .next t ∧ t.sp.toNat = s.spPlus (pcBytes s.cfg) ∧
      (i = .reti → t.irqHoldoff = true ∧ t.flag .I = (!s.cfg.isXmega || s.flag .I)) ∧
      (i = .ret → t.sreg = s.sreg ∧ t.irqHoldoff = s.irqHoldoff) ∧
      ((∀ a ∈ popAddresses s, isSram s.cfg a = true) →
        (s.cfg.pcBits = 16 → t.pc.toNat = (s.sramAt (s.spPlus 1)).toNat * 256 + (s.sramAt (s.spPlus 2)).toNat) ∧
        (s.cfg.pcBits = 22 → t.pc.toNat = (s.sramAt (s.spPlus 1)).toNat % 64 * 65536 +
          (s.sramAt (s.spPlus 2)).toNat * 256 + (s.sramAt (s.spPlus 3)).toNat))

/-- R290 to R295: a call whose stack lies in SRAM, followed at once by RET, is back at the instruction after the call with
the SP, the registers and the flags it started with. -/
def Obligations.CallThenReturn : Prop :=
  ∀ (s t : State) (i : Instr) (n : Nat), Invariant s → s.cfg.widthsOk = true → stackInSram s →
    ((∃ k, i = .rcall k) ∧ n = 1 ∨ i = .icall ∧ n = 1 ∨ i = .eicall ∧ n = 1 ∨ (∃ k, i = .call k) ∧ n = 2) →
    exec i s = .next t →
    ∃ u, exec .ret t = .next u ∧ u.pc = s.pcAfter n ∧ u.sp = s.sp ∧ u.sreg = s.sreg ∧ (∀ r, u.reg r = s.reg r) ∧
      ∀ a, a ∉ callStores s → u.sramAt a = s.sramAt a

/-! ## XMEGA read-modify-write and DES -/

/-- R305 to R308, R310, R92: XCH, LAS, LAC, LAT: the old byte at RAMPZ:Z (Z, where RAMPZ takes no part in data addressing) in
Rd, the new one there, in memory or in the CPU register at that address (of a segment register its implemented bits,
notes/assumptions/17.md); DES writes R0 to R15 as the opaque DesRound says, and nothing else (notes/assumptions/24.md). -/
def Obligations.ReadModifyWriteResult : Prop :=
  ∀ (s : State) (d : Reg),
    (∀ (i : Instr) (f : Bool → Bool → Bool) (a : Nat), implements s.cfg i = true →
      (i = .xch d ∧ f = (fun _ v => v) ∨ i = .las d ∧ f = (fun o v => o || v) ∨ i = .lac d ∧ f = (fun o v => o && !v) ∨
        i = .lat d ∧ f = (fun o v => o ^^ v)) →
      a = (if s.cfg.hasRampZ && s.cfg.rampzForData then s.rampz.toNat * 65536 else 0) + (s.pair 30).toNat →
      (mapped s.cfg a = true → ∃ t old new, exec i s = .next t ∧ t.pc = s.pcAfter 1 ∧ s.dataByte a = some old ∧
        t.reg d = old ∧ (∀ j, j < 8 → new.getLsbD j = f (old.getLsbD j) ((s.reg d).getLsbD j)) ∧
        (isSram s.cfg a = true → sramOk s → t.sramAt a = new) ∧
        (Invariant s → plainByte s a = true → place s.cfg a ≠ .register d → t.dataByte a = some new) ∧
        heldByCpuRegister s t a new ∧ heldBySp s t a new) ∧
      (place s.cfg a = .nothing → exec i s = .fault (.dataOutOfRange a))) ∧
    ∀ k, implements s.cfg (.des k) = true → ∃ t, exec (.des k) s = .next t ∧ t.pc = s.pcAfter 1 ∧
      t.lowRegs = Config.desRound k (s.flag .H) s.lowRegs ∧ ∀ r : Reg, 16 ≤ r.toNat → t.reg r = s.reg r
end

