-- ==== Sys2Proof/Laws/Flags.lean ====
section
/-! SUPPORT. SREG: what a flag reads after each way of writing flags. -/

namespace Sys2Proof.Machine

open Sys2Proof

/-- One bit written, the others kept. -/
theorem getLsbD_putBit (v : Byte) {i j : Nat} (b : Bool) (hj : j < 8) :
    (putBit v i b).getLsbD j = if j = i then b else v.getLsbD j := by
  have one : (1#8 <<< i).getLsbD j = decide (j = i) := by
    simp only [BitVec.getLsbD_shiftLeft, BitVec.getLsbD_one, hj]
    by_cases h : j = i
    · simp [h]
    · simp only [h, decide_false]
      by_cases h' : j < i
      · simp [h']
      · have : j - i ≠ 0 := by omega
        simp [this]
  unfold putBit
  cases b
  · simp only [Bool.false_eq_true, if_false, BitVec.getLsbD_and, BitVec.getLsbD_not, one, hj]
    by_cases h : j = i <;> simp [h]
  · simp only [if_true, BitVec.getLsbD_or, one]
    by_cases h : j = i <;> simp [h]

theorem Flag.bit_lt (f : Flag) : f.bit < 8 := by cases f <;> decide

theorem Flag.bit_inj {f g : Flag} : f.bit = g.bit ↔ f = g := by cases f <;> cases g <;> decide

/-- One flag written, the others kept. -/
theorem getFlag_putFlag (v : Byte) (f g : Flag) (b : Bool) :
    getFlag (putFlag v g b) f = if f = g then b else getFlag v f := by
  simp only [getFlag, putFlag, getLsbD_putBit v b f.bit_lt, Flag.bit_inj]

theorem getFlag_putZC (v : Byte) (z c : Bool) (f : Flag) (h : f ∉ [Flag.Z, Flag.C]) :
    getFlag (putZC v z c) f = getFlag v f := by
  simp only [List.mem_cons, List.not_mem_nil, or_false, not_or] at h
  simp [putZC, getFlag_putFlag, h]

theorem getFlag_putSVNZ (sreg : Byte) (v n z : Bool) (f : Flag) (h : f ∉ flagsLogic) :
    getFlag (putSVNZ sreg v n z) f = getFlag sreg f := by
  simp only [flagsLogic, List.mem_cons, List.not_mem_nil, or_false, not_or] at h
  simp [putSVNZ, getFlag_putFlag, h]

theorem getFlag_putSVNZC (sreg : Byte) (v n z c : Bool) (f : Flag) (h : f ∉ flagsShift) :
    getFlag (putSVNZC sreg v n z c) f = getFlag sreg f := by
  simp only [flagsShift, List.mem_cons, List.not_mem_nil, or_false, not_or] at h
  simp [putSVNZC, putSVNZ, getFlag_putFlag, h]

theorem getFlag_putHSVNZC (sreg : Byte) (x v n z c : Bool) (f : Flag) (h : f ∉ flagsArithmetic) :
    getFlag (putHSVNZC sreg x v n z c) f = getFlag sreg f := by
  simp only [flagsArithmetic, List.mem_cons, List.not_mem_nil, or_false, not_or] at h
  simp [putHSVNZC, putSVNZC, putSVNZ, getFlag_putFlag, h]

/-! ## Each flag after each way of writing them -/

@[simp] theorem getFlag_putZC_C (x : Byte) (z c : Bool) :
    getFlag (putZC x z c) .C = c := by simp [putZC, getFlag_putFlag]
@[simp] theorem getFlag_putZC_Z (x : Byte) (z c : Bool) :
    getFlag (putZC x z c) .Z = z := by simp [putZC, getFlag_putFlag]
@[simp] theorem getFlag_putZC_N (x : Byte) (z c : Bool) :
    getFlag (putZC x z c) .N = getFlag x .N := by simp [putZC, getFlag_putFlag]
@[simp] theorem getFlag_putZC_V (x : Byte) (z c : Bool) :
    getFlag (putZC x z c) .V = getFlag x .V := by simp [putZC, getFlag_putFlag]
@[simp] theorem getFlag_putZC_S (x : Byte) (z c : Bool) :
    getFlag (putZC x z c) .S = getFlag x .S := by simp [putZC, getFlag_putFlag]
@[simp] theorem getFlag_putZC_H (x : Byte) (z c : Bool) :
    getFlag (putZC x z c) .H = getFlag x .H := by simp [putZC, getFlag_putFlag]
@[simp] theorem getFlag_putZC_T (x : Byte) (z c : Bool) :
    getFlag (putZC x z c) .T = getFlag x .T := by simp [putZC, getFlag_putFlag]
@[simp] theorem getFlag_putZC_I (x : Byte) (z c : Bool) :
    getFlag (putZC x z c) .I = getFlag x .I := by simp [putZC, getFlag_putFlag]

@[simp] theorem getFlag_putSVNZ_C (x : Byte) (v n z : Bool) :
    getFlag (putSVNZ x v n z) .C = getFlag x .C := by simp [putSVNZ, getFlag_putFlag]
@[simp] theorem getFlag_putSVNZ_Z (x : Byte) (v n z : Bool) :
    getFlag (putSVNZ x v n z) .Z = z := by simp [putSVNZ, getFlag_putFlag]
@[simp] theorem getFlag_putSVNZ_N (x : Byte) (v n z : Bool) :
    getFlag (putSVNZ x v n z) .N = n := by simp [putSVNZ, getFlag_putFlag]
@[simp] theorem getFlag_putSVNZ_V (x : Byte) (v n z : Bool) :
    getFlag (putSVNZ x v n z) .V = v := by simp [putSVNZ, getFlag_putFlag]
@[simp] theorem getFlag_putSVNZ_S (x : Byte) (v n z : Bool) :
    getFlag (putSVNZ x v n z) .S = (n ^^ v) := by simp [putSVNZ, getFlag_putFlag]
@[simp] theorem getFlag_putSVNZ_H (x : Byte) (v n z : Bool) :
    getFlag (putSVNZ x v n z) .H = getFlag x .H := by simp [putSVNZ, getFlag_putFlag]
@[simp] theorem getFlag_putSVNZ_T (x : Byte) (v n z : Bool) :
    getFlag (putSVNZ x v n z) .T = getFlag x .T := by simp [putSVNZ, getFlag_putFlag]
@[simp] theorem getFlag_putSVNZ_I (x : Byte) (v n z : Bool) :
    getFlag (putSVNZ x v n z) .I = getFlag x .I := by simp [putSVNZ, getFlag_putFlag]

@[simp] theorem getFlag_putSVNZC_C (x : Byte) (v n z c : Bool) :
    getFlag (putSVNZC x v n z c) .C = c := by simp [putSVNZC, putSVNZ, getFlag_putFlag]
@[simp] theorem getFlag_putSVNZC_Z (x : Byte) (v n z c : Bool) :
    getFlag (putSVNZC x v n z c) .Z = z := by simp [putSVNZC, putSVNZ, getFlag_putFlag]
@[simp] theorem getFlag_putSVNZC_N (x : Byte) (v n z c : Bool) :
    getFlag (putSVNZC x v n z c) .N = n := by simp [putSVNZC, putSVNZ, getFlag_putFlag]
@[simp] theorem getFlag_putSVNZC_V (x : Byte) (v n z c : Bool) :
    getFlag (putSVNZC x v n z c) .V = v := by simp [putSVNZC, putSVNZ, getFlag_putFlag]
@[simp] theorem getFlag_putSVNZC_S (x : Byte) (v n z c : Bool) :
    getFlag (putSVNZC x v n z c) .S = (n ^^ v) := by simp [putSVNZC, putSVNZ, getFlag_putFlag]
@[simp] theorem getFlag_putSVNZC_H (x : Byte) (v n z c : Bool) :
    getFlag (putSVNZC x v n z c) .H = getFlag x .H := by simp [putSVNZC, putSVNZ, getFlag_putFlag]
@[simp] theorem getFlag_putSVNZC_T (x : Byte) (v n z c : Bool) :
    getFlag (putSVNZC x v n z c) .T = getFlag x .T := by simp [putSVNZC, putSVNZ, getFlag_putFlag]
@[simp] theorem getFlag_putSVNZC_I (x : Byte) (v n z c : Bool) :
    getFlag (putSVNZC x v n z c) .I = getFlag x .I := by simp [putSVNZC, putSVNZ, getFlag_putFlag]

@[simp] theorem getFlag_putHSVNZC_C (x : Byte) (h v n z c : Bool) :
    getFlag (putHSVNZC x h v n z c) .C = c := by simp [putHSVNZC, putSVNZC, putSVNZ, getFlag_putFlag]
@[simp] theorem getFlag_putHSVNZC_Z (x : Byte) (h v n z c : Bool) :
    getFlag (putHSVNZC x h v n z c) .Z = z := by simp [putHSVNZC, putSVNZC, putSVNZ, getFlag_putFlag]
@[simp] theorem getFlag_putHSVNZC_N (x : Byte) (h v n z c : Bool) :
    getFlag (putHSVNZC x h v n z c) .N = n := by simp [putHSVNZC, putSVNZC, putSVNZ, getFlag_putFlag]
@[simp] theorem getFlag_putHSVNZC_V (x : Byte) (h v n z c : Bool) :
    getFlag (putHSVNZC x h v n z c) .V = v := by simp [putHSVNZC, putSVNZC, putSVNZ, getFlag_putFlag]
@[simp] theorem getFlag_putHSVNZC_S (x : Byte) (h v n z c : Bool) :
    getFlag (putHSVNZC x h v n z c) .S = (n ^^ v) := by simp [putHSVNZC, putSVNZC, putSVNZ, getFlag_putFlag]
@[simp] theorem getFlag_putHSVNZC_H (x : Byte) (h v n z c : Bool) :
    getFlag (putHSVNZC x h v n z c) .H = h := by simp [putHSVNZC, putSVNZC, putSVNZ, getFlag_putFlag]
@[simp] theorem getFlag_putHSVNZC_T (x : Byte) (h v n z c : Bool) :
    getFlag (putHSVNZC x h v n z c) .T = getFlag x .T := by simp [putHSVNZC, putSVNZC, putSVNZ, getFlag_putFlag]
@[simp] theorem getFlag_putHSVNZC_I (x : Byte) (h v n z c : Bool) :
    getFlag (putHSVNZC x h v n z c) .I = getFlag x .I := by simp [putHSVNZC, putSVNZC, putSVNZ, getFlag_putFlag]

/-! ## What each flag computation keeps (R45) -/

theorem getFlag_addFlags (sreg a b : Byte) (c : Bool) (f : Flag) (h : f ∉ flagsArithmetic) :
    getFlag (addFlags sreg a b c) f = getFlag sreg f := getFlag_putHSVNZC _ _ _ _ _ _ f h

theorem getFlag_subFlags (sreg a b : Byte) (c k : Bool) (f : Flag) (h : f ∉ flagsArithmetic) :
    getFlag (subFlags sreg a b c k) f = getFlag sreg f := getFlag_putHSVNZC _ _ _ _ _ _ f h

theorem getFlag_logicFlags (sreg r : Byte) (f : Flag) (h : f ∉ flagsLogic) :
    getFlag (logicFlags sreg r) f = getFlag sreg f := getFlag_putSVNZ _ _ _ _ f h

theorem getFlag_incFlags (sreg r : Byte) (f : Flag) (h : f ∉ flagsLogic) :
    getFlag (incFlags sreg r) f = getFlag sreg f := getFlag_putSVNZ _ _ _ _ f h

theorem getFlag_decFlags (sreg r : Byte) (f : Flag) (h : f ∉ flagsLogic) :
    getFlag (decFlags sreg r) f = getFlag sreg f := getFlag_putSVNZ _ _ _ _ f h

theorem getFlag_shiftRightFlags (sreg a r : Byte) (f : Flag) (h : f ∉ flagsShift) :
    getFlag (shiftRightFlags sreg a r) f = getFlag sreg f := getFlag_putSVNZC _ _ _ _ _ f h

theorem getFlag_adiwFlags (sreg : Byte) (a w : Word) (f : Flag) (h : f ∉ flagsShift) :
    getFlag (adiwFlags sreg a w) f = getFlag sreg f := getFlag_putSVNZC _ _ _ _ _ f h

theorem getFlag_sbiwFlags (sreg : Byte) (a w : Word) (f : Flag) (h : f ∉ flagsShift) :
    getFlag (sbiwFlags sreg a w) f = getFlag sreg f := getFlag_putSVNZC _ _ _ _ _ f h

theorem getFlag_mulFlags (sreg : Byte) (p : Word) (f : Flag) (h : f ∉ [Flag.Z, Flag.C]) :
    getFlag (mulFlags sreg p) f = getFlag sreg f := getFlag_putZC _ _ _ f h

theorem getFlag_fmulFlags (sreg : Byte) (p : Word) (f : Flag) (h : f ∉ [Flag.Z, Flag.C]) :
    getFlag (fmulFlags sreg p) f = getFlag sreg f := getFlag_putZC _ _ _ f h

end Sys2Proof.Machine
end

