-- ==== Sys2Proof/Laws/Memory.lean ====
section
/-! SUPPORT. Byte memories: a read after a write, and the canonical form kept by every operation. -/

namespace Sys2Proof.Machine

open Sys2Proof

/-- A write leaves every other address alone, in any list. -/
theorem Memory.read_write_other (dflt : Byte) (m : Memory) {a b : Nat} (v : Byte) (h : b ≠ a) :
    Memory.read dflt (Memory.write dflt m a v) b = Memory.read dflt m b := by
  induction m with
  | nil =>
    simp only [Memory.write]
    split <;> simp [Memory.read, h]
  | cons c m ih =>
    obtain ⟨k, w⟩ := c
    simp only [Memory.write]
    split
    · split <;> simp [Memory.read, h]
    · split
      · next hk => subst hk; split <;> simp [Memory.read, h]
      · simp [Memory.read, ih]

/-- An address below every listed one reads the default. -/
theorem Memory.read_of_below (dflt : Byte) (m : Memory) (a : Nat) (h : ∀ c ∈ m, a < c.1) :
    Memory.read dflt m a = dflt := by
  induction m with
  | nil => rfl
  | cons c m ih =>
    have h1 := h c (by simp)
    have h2 : a ≠ c.1 := by omega
    simp only [Memory.read, if_neg h2]
    exact ih fun x hx => h x (by simp [hx])

/-- A read after a write at the same address gives the byte written. -/
theorem Memory.read_write_same (dflt : Byte) (m : Memory) (a : Nat) (v : Byte) (h : Memory.wf dflt m) :
    Memory.read dflt (Memory.write dflt m a v) a = v := by
  induction m with
  | nil =>
    simp only [Memory.write]
    split <;> simp_all [Memory.read]
  | cons c m ih =>
    obtain ⟨k, w⟩ := c
    obtain ⟨hp, hd⟩ := h
    have hp' := List.pairwise_cons.mp hp
    simp only [Memory.write]
    split
    · next hlt =>
      split
      · next hv =>
        rw [hv]
        exact Memory.read_of_below dflt _ a fun x hx => by
          rcases List.mem_cons.mp hx with rfl | hx
          · exact hlt
          · have := hp'.1 x hx; simp only at this; omega
      · simp [Memory.read]
    · split
      · next hk =>
        split
        · next hv => rw [hv]; exact Memory.read_of_below dflt _ a fun x hx => by have := hp'.1 x hx; simp only at this; omega
        · simp [Memory.read]
      · next hk =>
        simp only [Memory.read, if_neg hk]
        exact ih ⟨hp'.2, fun x hx => hd x (by simp [hx])⟩

/-- What a write lists was listed before or is the address written. -/
theorem Memory.mem_write (dflt : Byte) (m : Memory) (a : Nat) (v : Byte) {c : Host.Cell}
    (h : c ∈ Memory.write dflt m a v) : c ∈ m ∨ (c = (a, v) ∧ v ≠ dflt) := by
  induction m with
  | nil =>
    simp only [Memory.write] at h
    split at h
    · simp at h
    · next hv => exact .inr ⟨by simpa using h, hv⟩
  | cons e m ih =>
    obtain ⟨k, w⟩ := e
    simp only [Memory.write] at h
    split at h
    · split at h
      · exact .inl h
      · next hv => rcases List.mem_cons.mp h with h | h
                   · exact .inr ⟨h, hv⟩
                   · exact .inl h
    · split at h
      · split at h
        · exact .inl (by simp [h])
        · next hv => rcases List.mem_cons.mp h with h | h
                     · exact .inr ⟨h, hv⟩
                     · exact .inl (by simp [h])
      · rcases List.mem_cons.mp h with h | h
        · exact .inl (by simp [h])
        · rcases ih h with h | h
          · exact .inl (by simp [h])
          · exact .inr h

/-- A write keeps the canonical form. -/
theorem Memory.write_wf (dflt : Byte) (m : Memory) (a : Nat) (v : Byte) (h : Memory.wf dflt m) :
    Memory.wf dflt (Memory.write dflt m a v) := by
  refine ⟨?_, fun c hc => ?_⟩
  · induction m with
    | nil => simp only [Memory.write]; split <;> simp
    | cons e m ih =>
      obtain ⟨k, w⟩ := e
      obtain ⟨hp, hd⟩ := h
      have hp' := List.pairwise_cons.mp hp
      simp only [Memory.write]
      split
      · next hlt =>
        split
        · exact hp
        · refine List.pairwise_cons.mpr ⟨fun x hx => ?_, hp⟩
          rcases List.mem_cons.mp hx with rfl | hx
          · exact hlt
          · have := hp'.1 x hx; simp only at this ⊢; omega
      · split
        · next hk =>
          split
          · exact hp'.2
          · exact List.pairwise_cons.mpr ⟨fun x hx => by have := hp'.1 x hx; simp only at this ⊢; omega, hp'.2⟩
        · refine List.pairwise_cons.mpr ⟨fun x hx => ?_, ih ⟨hp'.2, fun x hx => hd x (by simp [hx])⟩⟩
          rcases Memory.mem_write dflt m a v hx with hx | ⟨rfl, _⟩
          · exact hp'.1 x hx
          · simp only; omega
  · rcases Memory.mem_write dflt m a v hc with hc | ⟨rfl, hv⟩
    · exact h.2 c hc
    · exact hv

/-- The empty memory is canonical. -/
theorem Memory.nil_wf (dflt : Byte) : Memory.wf dflt [] := by simp [Memory.wf]

/-- A list of writes keeps the canonical form. -/
theorem Memory.writeAll_wf (dflt : Byte) (m : Memory) (ws : List Host.Cell) (h : Memory.wf dflt m) :
    Memory.wf dflt (Memory.writeAll dflt m ws) := by
  induction ws generalizing m with
  | nil => exact h
  | cons c ws ih => exact ih _ (Memory.write_wf dflt m c.1 c.2 h)

/-- What a list of writes lists was listed before or is an address written. -/
theorem Memory.mem_writeAll (dflt : Byte) (m : Memory) (ws : List Host.Cell) {c : Host.Cell}
    (h : c ∈ Memory.writeAll dflt m ws) : c ∈ m ∨ ∃ e ∈ ws, e.1 = c.1 := by
  induction ws generalizing m with
  | nil => exact .inl h
  | cons e ws ih =>
    rcases ih _ h with h | ⟨x, hx, hxc⟩
    · rcases Memory.mem_write dflt m e.1 e.2 h with h | ⟨rfl, _⟩
      · exact .inl h
      · exact .inr ⟨e, by simp, rfl⟩
    · exact .inr ⟨x, by simp [hx], hxc⟩

end Sys2Proof.Machine
end

