-- ==== Sys2Proof/Laws/State.lean ====
section
/-! SUPPORT. Every field of the state after every update of one field: the projections that later proofs use in place of
unfolding a record update. -/

namespace Sys2Proof.Machine

open Sys2Proof

/-! `setReg` -/

@[simp] theorem State.setReg_cfg (s : State) (r : Reg) (v : Byte) : (s.setReg r v).cfg = s.cfg := rfl
@[simp] theorem State.setReg_regs (s : State) (r : Reg) (v : Byte) : (s.setReg r v).regs = s.regs.set r.toNat v r.isLt := rfl
@[simp] theorem State.setReg_pc (s : State) (r : Reg) (v : Byte) : (s.setReg r v).pc = s.pc := rfl
@[simp] theorem State.setReg_sreg (s : State) (r : Reg) (v : Byte) : (s.setReg r v).sreg = s.sreg := rfl
@[simp] theorem State.setReg_sp (s : State) (r : Reg) (v : Byte) : (s.setReg r v).sp = s.sp := rfl
@[simp] theorem State.setReg_rampx (s : State) (r : Reg) (v : Byte) : (s.setReg r v).rampx = s.rampx := rfl
@[simp] theorem State.setReg_rampy (s : State) (r : Reg) (v : Byte) : (s.setReg r v).rampy = s.rampy := rfl
@[simp] theorem State.setReg_rampz (s : State) (r : Reg) (v : Byte) : (s.setReg r v).rampz = s.rampz := rfl
@[simp] theorem State.setReg_rampd (s : State) (r : Reg) (v : Byte) : (s.setReg r v).rampd = s.rampd := rfl
@[simp] theorem State.setReg_eind (s : State) (r : Reg) (v : Byte) : (s.setReg r v).eind = s.eind := rfl
@[simp] theorem State.setReg_sram (s : State) (r : Reg) (v : Byte) : (s.setReg r v).sram = s.sram := rfl
@[simp] theorem State.setReg_io (s : State) (r : Reg) (v : Byte) : (s.setReg r v).io = s.io := rfl
@[simp] theorem State.setReg_flash (s : State) (r : Reg) (v : Byte) : (s.setReg r v).flash = s.flash := rfl
@[simp] theorem State.setReg_irqHoldoff (s : State) (r : Reg) (v : Byte) : (s.setReg r v).irqHoldoff = s.irqHoldoff := rfl
@[simp] theorem State.setReg_run (s : State) (r : Reg) (v : Byte) : (s.setReg r v).run = s.run := rfl
@[simp] theorem State.setReg_irqPending (s : State) (r : Reg) (v : Byte) : (s.setReg r v).irqPending = s.irqPending := rfl
@[simp] theorem State.setReg_platform (s : State) (r : Reg) (v : Byte) : (s.setReg r v).platform = s.platform := rfl

/-! `setPc` -/

@[simp] theorem State.setPc_cfg (s : State) (n : Nat) : (s.setPc n).cfg = s.cfg := rfl
@[simp] theorem State.setPc_regs (s : State) (n : Nat) : (s.setPc n).regs = s.regs := rfl
@[simp] theorem State.setPc_pc (s : State) (n : Nat) : (s.setPc n).pc = BitVec.ofNat 22 (n % 2 ^ s.cfg.pcBits) := rfl
@[simp] theorem State.setPc_sreg (s : State) (n : Nat) : (s.setPc n).sreg = s.sreg := rfl
@[simp] theorem State.setPc_sp (s : State) (n : Nat) : (s.setPc n).sp = s.sp := rfl
@[simp] theorem State.setPc_rampx (s : State) (n : Nat) : (s.setPc n).rampx = s.rampx := rfl
@[simp] theorem State.setPc_rampy (s : State) (n : Nat) : (s.setPc n).rampy = s.rampy := rfl
@[simp] theorem State.setPc_rampz (s : State) (n : Nat) : (s.setPc n).rampz = s.rampz := rfl
@[simp] theorem State.setPc_rampd (s : State) (n : Nat) : (s.setPc n).rampd = s.rampd := rfl
@[simp] theorem State.setPc_eind (s : State) (n : Nat) : (s.setPc n).eind = s.eind := rfl
@[simp] theorem State.setPc_sram (s : State) (n : Nat) : (s.setPc n).sram = s.sram := rfl
@[simp] theorem State.setPc_io (s : State) (n : Nat) : (s.setPc n).io = s.io := rfl
@[simp] theorem State.setPc_flash (s : State) (n : Nat) : (s.setPc n).flash = s.flash := rfl
@[simp] theorem State.setPc_irqHoldoff (s : State) (n : Nat) : (s.setPc n).irqHoldoff = s.irqHoldoff := rfl
@[simp] theorem State.setPc_run (s : State) (n : Nat) : (s.setPc n).run = s.run := rfl
@[simp] theorem State.setPc_irqPending (s : State) (n : Nat) : (s.setPc n).irqPending = s.irqPending := rfl
@[simp] theorem State.setPc_platform (s : State) (n : Nat) : (s.setPc n).platform = s.platform := rfl

/-! `setSreg` -/

@[simp] theorem State.setSreg_cfg (s : State) (v : Byte) : (s.setSreg v).cfg = s.cfg := rfl
@[simp] theorem State.setSreg_regs (s : State) (v : Byte) : (s.setSreg v).regs = s.regs := rfl
@[simp] theorem State.setSreg_pc (s : State) (v : Byte) : (s.setSreg v).pc = s.pc := rfl
@[simp] theorem State.setSreg_sreg (s : State) (v : Byte) : (s.setSreg v).sreg = v := rfl
@[simp] theorem State.setSreg_sp (s : State) (v : Byte) : (s.setSreg v).sp = s.sp := rfl
@[simp] theorem State.setSreg_rampx (s : State) (v : Byte) : (s.setSreg v).rampx = s.rampx := rfl
@[simp] theorem State.setSreg_rampy (s : State) (v : Byte) : (s.setSreg v).rampy = s.rampy := rfl
@[simp] theorem State.setSreg_rampz (s : State) (v : Byte) : (s.setSreg v).rampz = s.rampz := rfl
@[simp] theorem State.setSreg_rampd (s : State) (v : Byte) : (s.setSreg v).rampd = s.rampd := rfl
@[simp] theorem State.setSreg_eind (s : State) (v : Byte) : (s.setSreg v).eind = s.eind := rfl
@[simp] theorem State.setSreg_sram (s : State) (v : Byte) : (s.setSreg v).sram = s.sram := rfl
@[simp] theorem State.setSreg_io (s : State) (v : Byte) : (s.setSreg v).io = s.io := rfl
@[simp] theorem State.setSreg_flash (s : State) (v : Byte) : (s.setSreg v).flash = s.flash := rfl
@[simp] theorem State.setSreg_irqHoldoff (s : State) (v : Byte) : (s.setSreg v).irqHoldoff = s.irqHoldoff := rfl
@[simp] theorem State.setSreg_run (s : State) (v : Byte) : (s.setSreg v).run = s.run := rfl
@[simp] theorem State.setSreg_irqPending (s : State) (v : Byte) : (s.setSreg v).irqPending = s.irqPending := rfl
@[simp] theorem State.setSreg_platform (s : State) (v : Byte) : (s.setSreg v).platform = s.platform := rfl

/-! `writeSreg` -/

@[simp] theorem State.writeSreg_cfg (s : State) (v : Byte) : (s.writeSreg v).cfg = s.cfg := rfl
@[simp] theorem State.writeSreg_regs (s : State) (v : Byte) : (s.writeSreg v).regs = s.regs := rfl
@[simp] theorem State.writeSreg_pc (s : State) (v : Byte) : (s.writeSreg v).pc = s.pc := rfl
@[simp] theorem State.writeSreg_sreg (s : State) (v : Byte) : (s.writeSreg v).sreg = v := rfl
@[simp] theorem State.writeSreg_sp (s : State) (v : Byte) : (s.writeSreg v).sp = s.sp := rfl
@[simp] theorem State.writeSreg_rampx (s : State) (v : Byte) : (s.writeSreg v).rampx = s.rampx := rfl
@[simp] theorem State.writeSreg_rampy (s : State) (v : Byte) : (s.writeSreg v).rampy = s.rampy := rfl
@[simp] theorem State.writeSreg_rampz (s : State) (v : Byte) : (s.writeSreg v).rampz = s.rampz := rfl
@[simp] theorem State.writeSreg_rampd (s : State) (v : Byte) : (s.writeSreg v).rampd = s.rampd := rfl
@[simp] theorem State.writeSreg_eind (s : State) (v : Byte) : (s.writeSreg v).eind = s.eind := rfl
@[simp] theorem State.writeSreg_sram (s : State) (v : Byte) : (s.writeSreg v).sram = s.sram := rfl
@[simp] theorem State.writeSreg_io (s : State) (v : Byte) : (s.writeSreg v).io = s.io := rfl
@[simp] theorem State.writeSreg_flash (s : State) (v : Byte) : (s.writeSreg v).flash = s.flash := rfl
@[simp] theorem State.writeSreg_irqHoldoff (s : State) (v : Byte) : (s.writeSreg v).irqHoldoff = (s.irqHoldoff || (getFlag v .I && !getFlag s.sreg .I)) := rfl
@[simp] theorem State.writeSreg_run (s : State) (v : Byte) : (s.writeSreg v).run = s.run := rfl
@[simp] theorem State.writeSreg_irqPending (s : State) (v : Byte) : (s.writeSreg v).irqPending = s.irqPending := rfl
@[simp] theorem State.writeSreg_platform (s : State) (v : Byte) : (s.writeSreg v).platform = s.platform := rfl

/-! `setSp` -/

@[simp] theorem State.setSp_cfg (s : State) (n : Nat) : (s.setSp n).cfg = s.cfg := rfl
@[simp] theorem State.setSp_regs (s : State) (n : Nat) : (s.setSp n).regs = s.regs := rfl
@[simp] theorem State.setSp_pc (s : State) (n : Nat) : (s.setSp n).pc = s.pc := rfl
@[simp] theorem State.setSp_sreg (s : State) (n : Nat) : (s.setSp n).sreg = s.sreg := rfl
@[simp] theorem State.setSp_sp (s : State) (n : Nat) : (s.setSp n).sp = BitVec.ofNat 16 (n % 2 ^ s.cfg.spBits) := rfl
@[simp] theorem State.setSp_rampx (s : State) (n : Nat) : (s.setSp n).rampx = s.rampx := rfl
@[simp] theorem State.setSp_rampy (s : State) (n : Nat) : (s.setSp n).rampy = s.rampy := rfl
@[simp] theorem State.setSp_rampz (s : State) (n : Nat) : (s.setSp n).rampz = s.rampz := rfl
@[simp] theorem State.setSp_rampd (s : State) (n : Nat) : (s.setSp n).rampd = s.rampd := rfl
@[simp] theorem State.setSp_eind (s : State) (n : Nat) : (s.setSp n).eind = s.eind := rfl
@[simp] theorem State.setSp_sram (s : State) (n : Nat) : (s.setSp n).sram = s.sram := rfl
@[simp] theorem State.setSp_io (s : State) (n : Nat) : (s.setSp n).io = s.io := rfl
@[simp] theorem State.setSp_flash (s : State) (n : Nat) : (s.setSp n).flash = s.flash := rfl
@[simp] theorem State.setSp_irqHoldoff (s : State) (n : Nat) : (s.setSp n).irqHoldoff = s.irqHoldoff := rfl
@[simp] theorem State.setSp_run (s : State) (n : Nat) : (s.setSp n).run = s.run := rfl
@[simp] theorem State.setSp_irqPending (s : State) (n : Nat) : (s.setSp n).irqPending = s.irqPending := rfl
@[simp] theorem State.setSp_platform (s : State) (n : Nat) : (s.setSp n).platform = s.platform := rfl

/-! `setRampx` -/

@[simp] theorem State.setRampx_cfg (s : State) (v : Byte) : (s.setRampx v).cfg = s.cfg := rfl
@[simp] theorem State.setRampx_regs (s : State) (v : Byte) : (s.setRampx v).regs = s.regs := rfl
@[simp] theorem State.setRampx_pc (s : State) (v : Byte) : (s.setRampx v).pc = s.pc := rfl
@[simp] theorem State.setRampx_sreg (s : State) (v : Byte) : (s.setRampx v).sreg = s.sreg := rfl
@[simp] theorem State.setRampx_sp (s : State) (v : Byte) : (s.setRampx v).sp = s.sp := rfl
@[simp] theorem State.setRampx_rampx (s : State) (v : Byte) : (s.setRampx v).rampx = maskBits s.cfg.rampBits v := rfl
@[simp] theorem State.setRampx_rampy (s : State) (v : Byte) : (s.setRampx v).rampy = s.rampy := rfl
@[simp] theorem State.setRampx_rampz (s : State) (v : Byte) : (s.setRampx v).rampz = s.rampz := rfl
@[simp] theorem State.setRampx_rampd (s : State) (v : Byte) : (s.setRampx v).rampd = s.rampd := rfl
@[simp] theorem State.setRampx_eind (s : State) (v : Byte) : (s.setRampx v).eind = s.eind := rfl
@[simp] theorem State.setRampx_sram (s : State) (v : Byte) : (s.setRampx v).sram = s.sram := rfl
@[simp] theorem State.setRampx_io (s : State) (v : Byte) : (s.setRampx v).io = s.io := rfl
@[simp] theorem State.setRampx_flash (s : State) (v : Byte) : (s.setRampx v).flash = s.flash := rfl
@[simp] theorem State.setRampx_irqHoldoff (s : State) (v : Byte) : (s.setRampx v).irqHoldoff = s.irqHoldoff := rfl
@[simp] theorem State.setRampx_run (s : State) (v : Byte) : (s.setRampx v).run = s.run := rfl
@[simp] theorem State.setRampx_irqPending (s : State) (v : Byte) : (s.setRampx v).irqPending = s.irqPending := rfl
@[simp] theorem State.setRampx_platform (s : State) (v : Byte) : (s.setRampx v).platform = s.platform := rfl

/-! `setRampy` -/

@[simp] theorem State.setRampy_cfg (s : State) (v : Byte) : (s.setRampy v).cfg = s.cfg := rfl
@[simp] theorem State.setRampy_regs (s : State) (v : Byte) : (s.setRampy v).regs = s.regs := rfl
@[simp] theorem State.setRampy_pc (s : State) (v : Byte) : (s.setRampy v).pc = s.pc := rfl
@[simp] theorem State.setRampy_sreg (s : State) (v : Byte) : (s.setRampy v).sreg = s.sreg := rfl
@[simp] theorem State.setRampy_sp (s : State) (v : Byte) : (s.setRampy v).sp = s.sp := rfl
@[simp] theorem State.setRampy_rampx (s : State) (v : Byte) : (s.setRampy v).rampx = s.rampx := rfl
@[simp] theorem State.setRampy_rampy (s : State) (v : Byte) : (s.setRampy v).rampy = maskBits s.cfg.rampBits v := rfl
@[simp] theorem State.setRampy_rampz (s : State) (v : Byte) : (s.setRampy v).rampz = s.rampz := rfl
@[simp] theorem State.setRampy_rampd (s : State) (v : Byte) : (s.setRampy v).rampd = s.rampd := rfl
@[simp] theorem State.setRampy_eind (s : State) (v : Byte) : (s.setRampy v).eind = s.eind := rfl
@[simp] theorem State.setRampy_sram (s : State) (v : Byte) : (s.setRampy v).sram = s.sram := rfl
@[simp] theorem State.setRampy_io (s : State) (v : Byte) : (s.setRampy v).io = s.io := rfl
@[simp] theorem State.setRampy_flash (s : State) (v : Byte) : (s.setRampy v).flash = s.flash := rfl
@[simp] theorem State.setRampy_irqHoldoff (s : State) (v : Byte) : (s.setRampy v).irqHoldoff = s.irqHoldoff := rfl
@[simp] theorem State.setRampy_run (s : State) (v : Byte) : (s.setRampy v).run = s.run := rfl
@[simp] theorem State.setRampy_irqPending (s : State) (v : Byte) : (s.setRampy v).irqPending = s.irqPending := rfl
@[simp] theorem State.setRampy_platform (s : State) (v : Byte) : (s.setRampy v).platform = s.platform := rfl

/-! `setRampz` -/

@[simp] theorem State.setRampz_cfg (s : State) (v : Byte) : (s.setRampz v).cfg = s.cfg := rfl
@[simp] theorem State.setRampz_regs (s : State) (v : Byte) : (s.setRampz v).regs = s.regs := rfl
@[simp] theorem State.setRampz_pc (s : State) (v : Byte) : (s.setRampz v).pc = s.pc := rfl
@[simp] theorem State.setRampz_sreg (s : State) (v : Byte) : (s.setRampz v).sreg = s.sreg := rfl
@[simp] theorem State.setRampz_sp (s : State) (v : Byte) : (s.setRampz v).sp = s.sp := rfl
@[simp] theorem State.setRampz_rampx (s : State) (v : Byte) : (s.setRampz v).rampx = s.rampx := rfl
@[simp] theorem State.setRampz_rampy (s : State) (v : Byte) : (s.setRampz v).rampy = s.rampy := rfl
@[simp] theorem State.setRampz_rampz (s : State) (v : Byte) : (s.setRampz v).rampz = maskBits s.cfg.rampBits v := rfl
@[simp] theorem State.setRampz_rampd (s : State) (v : Byte) : (s.setRampz v).rampd = s.rampd := rfl
@[simp] theorem State.setRampz_eind (s : State) (v : Byte) : (s.setRampz v).eind = s.eind := rfl
@[simp] theorem State.setRampz_sram (s : State) (v : Byte) : (s.setRampz v).sram = s.sram := rfl
@[simp] theorem State.setRampz_io (s : State) (v : Byte) : (s.setRampz v).io = s.io := rfl
@[simp] theorem State.setRampz_flash (s : State) (v : Byte) : (s.setRampz v).flash = s.flash := rfl
@[simp] theorem State.setRampz_irqHoldoff (s : State) (v : Byte) : (s.setRampz v).irqHoldoff = s.irqHoldoff := rfl
@[simp] theorem State.setRampz_run (s : State) (v : Byte) : (s.setRampz v).run = s.run := rfl
@[simp] theorem State.setRampz_irqPending (s : State) (v : Byte) : (s.setRampz v).irqPending = s.irqPending := rfl
@[simp] theorem State.setRampz_platform (s : State) (v : Byte) : (s.setRampz v).platform = s.platform := rfl

/-! `setRampd` -/

@[simp] theorem State.setRampd_cfg (s : State) (v : Byte) : (s.setRampd v).cfg = s.cfg := rfl
@[simp] theorem State.setRampd_regs (s : State) (v : Byte) : (s.setRampd v).regs = s.regs := rfl
@[simp] theorem State.setRampd_pc (s : State) (v : Byte) : (s.setRampd v).pc = s.pc := rfl
@[simp] theorem State.setRampd_sreg (s : State) (v : Byte) : (s.setRampd v).sreg = s.sreg := rfl
@[simp] theorem State.setRampd_sp (s : State) (v : Byte) : (s.setRampd v).sp = s.sp := rfl
@[simp] theorem State.setRampd_rampx (s : State) (v : Byte) : (s.setRampd v).rampx = s.rampx := rfl
@[simp] theorem State.setRampd_rampy (s : State) (v : Byte) : (s.setRampd v).rampy = s.rampy := rfl
@[simp] theorem State.setRampd_rampz (s : State) (v : Byte) : (s.setRampd v).rampz = s.rampz := rfl
@[simp] theorem State.setRampd_rampd (s : State) (v : Byte) : (s.setRampd v).rampd = maskBits s.cfg.rampBits v := rfl
@[simp] theorem State.setRampd_eind (s : State) (v : Byte) : (s.setRampd v).eind = s.eind := rfl
@[simp] theorem State.setRampd_sram (s : State) (v : Byte) : (s.setRampd v).sram = s.sram := rfl
@[simp] theorem State.setRampd_io (s : State) (v : Byte) : (s.setRampd v).io = s.io := rfl
@[simp] theorem State.setRampd_flash (s : State) (v : Byte) : (s.setRampd v).flash = s.flash := rfl
@[simp] theorem State.setRampd_irqHoldoff (s : State) (v : Byte) : (s.setRampd v).irqHoldoff = s.irqHoldoff := rfl
@[simp] theorem State.setRampd_run (s : State) (v : Byte) : (s.setRampd v).run = s.run := rfl
@[simp] theorem State.setRampd_irqPending (s : State) (v : Byte) : (s.setRampd v).irqPending = s.irqPending := rfl
@[simp] theorem State.setRampd_platform (s : State) (v : Byte) : (s.setRampd v).platform = s.platform := rfl

/-! `setEind` -/

@[simp] theorem State.setEind_cfg (s : State) (v : Byte) : (s.setEind v).cfg = s.cfg := rfl
@[simp] theorem State.setEind_regs (s : State) (v : Byte) : (s.setEind v).regs = s.regs := rfl
@[simp] theorem State.setEind_pc (s : State) (v : Byte) : (s.setEind v).pc = s.pc := rfl
@[simp] theorem State.setEind_sreg (s : State) (v : Byte) : (s.setEind v).sreg = s.sreg := rfl
@[simp] theorem State.setEind_sp (s : State) (v : Byte) : (s.setEind v).sp = s.sp := rfl
@[simp] theorem State.setEind_rampx (s : State) (v : Byte) : (s.setEind v).rampx = s.rampx := rfl
@[simp] theorem State.setEind_rampy (s : State) (v : Byte) : (s.setEind v).rampy = s.rampy := rfl
@[simp] theorem State.setEind_rampz (s : State) (v : Byte) : (s.setEind v).rampz = s.rampz := rfl
@[simp] theorem State.setEind_rampd (s : State) (v : Byte) : (s.setEind v).rampd = s.rampd := rfl
@[simp] theorem State.setEind_eind (s : State) (v : Byte) : (s.setEind v).eind = maskBits s.cfg.eindBits v := rfl
@[simp] theorem State.setEind_sram (s : State) (v : Byte) : (s.setEind v).sram = s.sram := rfl
@[simp] theorem State.setEind_io (s : State) (v : Byte) : (s.setEind v).io = s.io := rfl
@[simp] theorem State.setEind_flash (s : State) (v : Byte) : (s.setEind v).flash = s.flash := rfl
@[simp] theorem State.setEind_irqHoldoff (s : State) (v : Byte) : (s.setEind v).irqHoldoff = s.irqHoldoff := rfl
@[simp] theorem State.setEind_run (s : State) (v : Byte) : (s.setEind v).run = s.run := rfl
@[simp] theorem State.setEind_irqPending (s : State) (v : Byte) : (s.setEind v).irqPending = s.irqPending := rfl
@[simp] theorem State.setEind_platform (s : State) (v : Byte) : (s.setEind v).platform = s.platform := rfl

/-! `setPlatform` -/

@[simp] theorem State.setPlatform_cfg (s : State) (p : Nat) : (s.setPlatform p).cfg = s.cfg := rfl
@[simp] theorem State.setPlatform_regs (s : State) (p : Nat) : (s.setPlatform p).regs = s.regs := rfl
@[simp] theorem State.setPlatform_pc (s : State) (p : Nat) : (s.setPlatform p).pc = s.pc := rfl
@[simp] theorem State.setPlatform_sreg (s : State) (p : Nat) : (s.setPlatform p).sreg = s.sreg := rfl
@[simp] theorem State.setPlatform_sp (s : State) (p : Nat) : (s.setPlatform p).sp = s.sp := rfl
@[simp] theorem State.setPlatform_rampx (s : State) (p : Nat) : (s.setPlatform p).rampx = s.rampx := rfl
@[simp] theorem State.setPlatform_rampy (s : State) (p : Nat) : (s.setPlatform p).rampy = s.rampy := rfl
@[simp] theorem State.setPlatform_rampz (s : State) (p : Nat) : (s.setPlatform p).rampz = s.rampz := rfl
@[simp] theorem State.setPlatform_rampd (s : State) (p : Nat) : (s.setPlatform p).rampd = s.rampd := rfl
@[simp] theorem State.setPlatform_eind (s : State) (p : Nat) : (s.setPlatform p).eind = s.eind := rfl
@[simp] theorem State.setPlatform_sram (s : State) (p : Nat) : (s.setPlatform p).sram = s.sram := rfl
@[simp] theorem State.setPlatform_io (s : State) (p : Nat) : (s.setPlatform p).io = s.io := rfl
@[simp] theorem State.setPlatform_flash (s : State) (p : Nat) : (s.setPlatform p).flash = s.flash := rfl
@[simp] theorem State.setPlatform_irqHoldoff (s : State) (p : Nat) : (s.setPlatform p).irqHoldoff = s.irqHoldoff := rfl
@[simp] theorem State.setPlatform_run (s : State) (p : Nat) : (s.setPlatform p).run = s.run := rfl
@[simp] theorem State.setPlatform_irqPending (s : State) (p : Nat) : (s.setPlatform p).irqPending = s.irqPending := rfl
@[simp] theorem State.setPlatform_platform (s : State) (p : Nat) : (s.setPlatform p).platform = p := rfl

/-! `setSram` -/

@[simp] theorem State.setSram_cfg (s : State) (m : Memory) : (s.setSram m).cfg = s.cfg := rfl
@[simp] theorem State.setSram_regs (s : State) (m : Memory) : (s.setSram m).regs = s.regs := rfl
@[simp] theorem State.setSram_pc (s : State) (m : Memory) : (s.setSram m).pc = s.pc := rfl
@[simp] theorem State.setSram_sreg (s : State) (m : Memory) : (s.setSram m).sreg = s.sreg := rfl
@[simp] theorem State.setSram_sp (s : State) (m : Memory) : (s.setSram m).sp = s.sp := rfl
@[simp] theorem State.setSram_rampx (s : State) (m : Memory) : (s.setSram m).rampx = s.rampx := rfl
@[simp] theorem State.setSram_rampy (s : State) (m : Memory) : (s.setSram m).rampy = s.rampy := rfl
@[simp] theorem State.setSram_rampz (s : State) (m : Memory) : (s.setSram m).rampz = s.rampz := rfl
@[simp] theorem State.setSram_rampd (s : State) (m : Memory) : (s.setSram m).rampd = s.rampd := rfl
@[simp] theorem State.setSram_eind (s : State) (m : Memory) : (s.setSram m).eind = s.eind := rfl
@[simp] theorem State.setSram_sram (s : State) (m : Memory) : (s.setSram m).sram = m := rfl
@[simp] theorem State.setSram_io (s : State) (m : Memory) : (s.setSram m).io = s.io := rfl
@[simp] theorem State.setSram_flash (s : State) (m : Memory) : (s.setSram m).flash = s.flash := rfl
@[simp] theorem State.setSram_irqHoldoff (s : State) (m : Memory) : (s.setSram m).irqHoldoff = s.irqHoldoff := rfl
@[simp] theorem State.setSram_run (s : State) (m : Memory) : (s.setSram m).run = s.run := rfl
@[simp] theorem State.setSram_irqPending (s : State) (m : Memory) : (s.setSram m).irqPending = s.irqPending := rfl
@[simp] theorem State.setSram_platform (s : State) (m : Memory) : (s.setSram m).platform = s.platform := rfl

/-! `setIo` -/

@[simp] theorem State.setIo_cfg (s : State) (m : Memory) : (s.setIo m).cfg = s.cfg := rfl
@[simp] theorem State.setIo_regs (s : State) (m : Memory) : (s.setIo m).regs = s.regs := rfl
@[simp] theorem State.setIo_pc (s : State) (m : Memory) : (s.setIo m).pc = s.pc := rfl
@[simp] theorem State.setIo_sreg (s : State) (m : Memory) : (s.setIo m).sreg = s.sreg := rfl
@[simp] theorem State.setIo_sp (s : State) (m : Memory) : (s.setIo m).sp = s.sp := rfl
@[simp] theorem State.setIo_rampx (s : State) (m : Memory) : (s.setIo m).rampx = s.rampx := rfl
@[simp] theorem State.setIo_rampy (s : State) (m : Memory) : (s.setIo m).rampy = s.rampy := rfl
@[simp] theorem State.setIo_rampz (s : State) (m : Memory) : (s.setIo m).rampz = s.rampz := rfl
@[simp] theorem State.setIo_rampd (s : State) (m : Memory) : (s.setIo m).rampd = s.rampd := rfl
@[simp] theorem State.setIo_eind (s : State) (m : Memory) : (s.setIo m).eind = s.eind := rfl
@[simp] theorem State.setIo_sram (s : State) (m : Memory) : (s.setIo m).sram = s.sram := rfl
@[simp] theorem State.setIo_io (s : State) (m : Memory) : (s.setIo m).io = m := rfl
@[simp] theorem State.setIo_flash (s : State) (m : Memory) : (s.setIo m).flash = s.flash := rfl
@[simp] theorem State.setIo_irqHoldoff (s : State) (m : Memory) : (s.setIo m).irqHoldoff = s.irqHoldoff := rfl
@[simp] theorem State.setIo_run (s : State) (m : Memory) : (s.setIo m).run = s.run := rfl
@[simp] theorem State.setIo_irqPending (s : State) (m : Memory) : (s.setIo m).irqPending = s.irqPending := rfl
@[simp] theorem State.setIo_platform (s : State) (m : Memory) : (s.setIo m).platform = s.platform := rfl

/-! `setFlash` -/

@[simp] theorem State.setFlash_cfg (s : State) (m : Memory) : (s.setFlash m).cfg = s.cfg := rfl
@[simp] theorem State.setFlash_regs (s : State) (m : Memory) : (s.setFlash m).regs = s.regs := rfl
@[simp] theorem State.setFlash_pc (s : State) (m : Memory) : (s.setFlash m).pc = s.pc := rfl
@[simp] theorem State.setFlash_sreg (s : State) (m : Memory) : (s.setFlash m).sreg = s.sreg := rfl
@[simp] theorem State.setFlash_sp (s : State) (m : Memory) : (s.setFlash m).sp = s.sp := rfl
@[simp] theorem State.setFlash_rampx (s : State) (m : Memory) : (s.setFlash m).rampx = s.rampx := rfl
@[simp] theorem State.setFlash_rampy (s : State) (m : Memory) : (s.setFlash m).rampy = s.rampy := rfl
@[simp] theorem State.setFlash_rampz (s : State) (m : Memory) : (s.setFlash m).rampz = s.rampz := rfl
@[simp] theorem State.setFlash_rampd (s : State) (m : Memory) : (s.setFlash m).rampd = s.rampd := rfl
@[simp] theorem State.setFlash_eind (s : State) (m : Memory) : (s.setFlash m).eind = s.eind := rfl
@[simp] theorem State.setFlash_sram (s : State) (m : Memory) : (s.setFlash m).sram = s.sram := rfl
@[simp] theorem State.setFlash_io (s : State) (m : Memory) : (s.setFlash m).io = s.io := rfl
@[simp] theorem State.setFlash_flash (s : State) (m : Memory) : (s.setFlash m).flash = m := rfl
@[simp] theorem State.setFlash_irqHoldoff (s : State) (m : Memory) : (s.setFlash m).irqHoldoff = s.irqHoldoff := rfl
@[simp] theorem State.setFlash_run (s : State) (m : Memory) : (s.setFlash m).run = s.run := rfl
@[simp] theorem State.setFlash_irqPending (s : State) (m : Memory) : (s.setFlash m).irqPending = s.irqPending := rfl
@[simp] theorem State.setFlash_platform (s : State) (m : Memory) : (s.setFlash m).platform = s.platform := rfl

/-! `setHoldoff` -/

@[simp] theorem State.setHoldoff_cfg (s : State) (b : Bool) : (s.setHoldoff b).cfg = s.cfg := rfl
@[simp] theorem State.setHoldoff_regs (s : State) (b : Bool) : (s.setHoldoff b).regs = s.regs := rfl
@[simp] theorem State.setHoldoff_pc (s : State) (b : Bool) : (s.setHoldoff b).pc = s.pc := rfl
@[simp] theorem State.setHoldoff_sreg (s : State) (b : Bool) : (s.setHoldoff b).sreg = s.sreg := rfl
@[simp] theorem State.setHoldoff_sp (s : State) (b : Bool) : (s.setHoldoff b).sp = s.sp := rfl
@[simp] theorem State.setHoldoff_rampx (s : State) (b : Bool) : (s.setHoldoff b).rampx = s.rampx := rfl
@[simp] theorem State.setHoldoff_rampy (s : State) (b : Bool) : (s.setHoldoff b).rampy = s.rampy := rfl
@[simp] theorem State.setHoldoff_rampz (s : State) (b : Bool) : (s.setHoldoff b).rampz = s.rampz := rfl
@[simp] theorem State.setHoldoff_rampd (s : State) (b : Bool) : (s.setHoldoff b).rampd = s.rampd := rfl
@[simp] theorem State.setHoldoff_eind (s : State) (b : Bool) : (s.setHoldoff b).eind = s.eind := rfl
@[simp] theorem State.setHoldoff_sram (s : State) (b : Bool) : (s.setHoldoff b).sram = s.sram := rfl
@[simp] theorem State.setHoldoff_io (s : State) (b : Bool) : (s.setHoldoff b).io = s.io := rfl
@[simp] theorem State.setHoldoff_flash (s : State) (b : Bool) : (s.setHoldoff b).flash = s.flash := rfl
@[simp] theorem State.setHoldoff_irqHoldoff (s : State) (b : Bool) : (s.setHoldoff b).irqHoldoff = b := rfl
@[simp] theorem State.setHoldoff_run (s : State) (b : Bool) : (s.setHoldoff b).run = s.run := rfl
@[simp] theorem State.setHoldoff_irqPending (s : State) (b : Bool) : (s.setHoldoff b).irqPending = s.irqPending := rfl
@[simp] theorem State.setHoldoff_platform (s : State) (b : Bool) : (s.setHoldoff b).platform = s.platform := rfl

/-! `setRun` -/

@[simp] theorem State.setRun_cfg (s : State) (r : RunState) : (s.setRun r).cfg = s.cfg := rfl
@[simp] theorem State.setRun_regs (s : State) (r : RunState) : (s.setRun r).regs = s.regs := rfl
@[simp] theorem State.setRun_pc (s : State) (r : RunState) : (s.setRun r).pc = s.pc := rfl
@[simp] theorem State.setRun_sreg (s : State) (r : RunState) : (s.setRun r).sreg = s.sreg := rfl
@[simp] theorem State.setRun_sp (s : State) (r : RunState) : (s.setRun r).sp = s.sp := rfl
@[simp] theorem State.setRun_rampx (s : State) (r : RunState) : (s.setRun r).rampx = s.rampx := rfl
@[simp] theorem State.setRun_rampy (s : State) (r : RunState) : (s.setRun r).rampy = s.rampy := rfl
@[simp] theorem State.setRun_rampz (s : State) (r : RunState) : (s.setRun r).rampz = s.rampz := rfl
@[simp] theorem State.setRun_rampd (s : State) (r : RunState) : (s.setRun r).rampd = s.rampd := rfl
@[simp] theorem State.setRun_eind (s : State) (r : RunState) : (s.setRun r).eind = s.eind := rfl
@[simp] theorem State.setRun_sram (s : State) (r : RunState) : (s.setRun r).sram = s.sram := rfl
@[simp] theorem State.setRun_io (s : State) (r : RunState) : (s.setRun r).io = s.io := rfl
@[simp] theorem State.setRun_flash (s : State) (r : RunState) : (s.setRun r).flash = s.flash := rfl
@[simp] theorem State.setRun_irqHoldoff (s : State) (r : RunState) : (s.setRun r).irqHoldoff = s.irqHoldoff := rfl
@[simp] theorem State.setRun_run (s : State) (r : RunState) : (s.setRun r).run = r := rfl
@[simp] theorem State.setRun_irqPending (s : State) (r : RunState) : (s.setRun r).irqPending = s.irqPending := rfl
@[simp] theorem State.setRun_platform (s : State) (r : RunState) : (s.setRun r).platform = s.platform := rfl

/-! `setPending` -/

@[simp] theorem State.setPending_cfg (s : State) (p : List Nat) : (s.setPending p).cfg = s.cfg := rfl
@[simp] theorem State.setPending_regs (s : State) (p : List Nat) : (s.setPending p).regs = s.regs := rfl
@[simp] theorem State.setPending_pc (s : State) (p : List Nat) : (s.setPending p).pc = s.pc := rfl
@[simp] theorem State.setPending_sreg (s : State) (p : List Nat) : (s.setPending p).sreg = s.sreg := rfl
@[simp] theorem State.setPending_sp (s : State) (p : List Nat) : (s.setPending p).sp = s.sp := rfl
@[simp] theorem State.setPending_rampx (s : State) (p : List Nat) : (s.setPending p).rampx = s.rampx := rfl
@[simp] theorem State.setPending_rampy (s : State) (p : List Nat) : (s.setPending p).rampy = s.rampy := rfl
@[simp] theorem State.setPending_rampz (s : State) (p : List Nat) : (s.setPending p).rampz = s.rampz := rfl
@[simp] theorem State.setPending_rampd (s : State) (p : List Nat) : (s.setPending p).rampd = s.rampd := rfl
@[simp] theorem State.setPending_eind (s : State) (p : List Nat) : (s.setPending p).eind = s.eind := rfl
@[simp] theorem State.setPending_sram (s : State) (p : List Nat) : (s.setPending p).sram = s.sram := rfl
@[simp] theorem State.setPending_io (s : State) (p : List Nat) : (s.setPending p).io = s.io := rfl
@[simp] theorem State.setPending_flash (s : State) (p : List Nat) : (s.setPending p).flash = s.flash := rfl
@[simp] theorem State.setPending_irqHoldoff (s : State) (p : List Nat) : (s.setPending p).irqHoldoff = s.irqHoldoff := rfl
@[simp] theorem State.setPending_run (s : State) (p : List Nat) : (s.setPending p).run = s.run := rfl
@[simp] theorem State.setPending_irqPending (s : State) (p : List Nat) : (s.setPending p).irqPending = p := rfl
@[simp] theorem State.setPending_platform (s : State) (p : List Nat) : (s.setPending p).platform = s.platform := rfl

/-! `setPair` -/

@[simp] theorem State.setPair_cfg (s : State) (r : Reg) (w : Word) : (s.setPair r w).cfg = s.cfg := rfl
@[simp] theorem State.setPair_pc (s : State) (r : Reg) (w : Word) : (s.setPair r w).pc = s.pc := rfl
@[simp] theorem State.setPair_sreg (s : State) (r : Reg) (w : Word) : (s.setPair r w).sreg = s.sreg := rfl
@[simp] theorem State.setPair_sp (s : State) (r : Reg) (w : Word) : (s.setPair r w).sp = s.sp := rfl
@[simp] theorem State.setPair_rampx (s : State) (r : Reg) (w : Word) : (s.setPair r w).rampx = s.rampx := rfl
@[simp] theorem State.setPair_rampy (s : State) (r : Reg) (w : Word) : (s.setPair r w).rampy = s.rampy := rfl
@[simp] theorem State.setPair_rampz (s : State) (r : Reg) (w : Word) : (s.setPair r w).rampz = s.rampz := rfl
@[simp] theorem State.setPair_rampd (s : State) (r : Reg) (w : Word) : (s.setPair r w).rampd = s.rampd := rfl
@[simp] theorem State.setPair_eind (s : State) (r : Reg) (w : Word) : (s.setPair r w).eind = s.eind := rfl
@[simp] theorem State.setPair_sram (s : State) (r : Reg) (w : Word) : (s.setPair r w).sram = s.sram := rfl
@[simp] theorem State.setPair_io (s : State) (r : Reg) (w : Word) : (s.setPair r w).io = s.io := rfl
@[simp] theorem State.setPair_flash (s : State) (r : Reg) (w : Word) : (s.setPair r w).flash = s.flash := rfl
@[simp] theorem State.setPair_irqHoldoff (s : State) (r : Reg) (w : Word) : (s.setPair r w).irqHoldoff = s.irqHoldoff := rfl
@[simp] theorem State.setPair_run (s : State) (r : Reg) (w : Word) : (s.setPair r w).run = s.run := rfl
@[simp] theorem State.setPair_irqPending (s : State) (r : Reg) (w : Word) : (s.setPair r w).irqPending = s.irqPending := rfl
@[simp] theorem State.setPair_platform (s : State) (r : Reg) (w : Word) : (s.setPair r w).platform = s.platform := rfl

/-! `advance` -/

@[simp] theorem State.advance_cfg (s : State) (n : Nat) : (s.advance n).cfg = s.cfg := rfl
@[simp] theorem State.advance_regs (s : State) (n : Nat) : (s.advance n).regs = s.regs := rfl
@[simp] theorem State.advance_pc (s : State) (n : Nat) : (s.advance n).pc = BitVec.ofNat 22 ((s.pc.toNat + n) % 2 ^ s.cfg.pcBits) := rfl
@[simp] theorem State.advance_sreg (s : State) (n : Nat) : (s.advance n).sreg = s.sreg := rfl
@[simp] theorem State.advance_sp (s : State) (n : Nat) : (s.advance n).sp = s.sp := rfl
@[simp] theorem State.advance_rampx (s : State) (n : Nat) : (s.advance n).rampx = s.rampx := rfl
@[simp] theorem State.advance_rampy (s : State) (n : Nat) : (s.advance n).rampy = s.rampy := rfl
@[simp] theorem State.advance_rampz (s : State) (n : Nat) : (s.advance n).rampz = s.rampz := rfl
@[simp] theorem State.advance_rampd (s : State) (n : Nat) : (s.advance n).rampd = s.rampd := rfl
@[simp] theorem State.advance_eind (s : State) (n : Nat) : (s.advance n).eind = s.eind := rfl
@[simp] theorem State.advance_sram (s : State) (n : Nat) : (s.advance n).sram = s.sram := rfl
@[simp] theorem State.advance_io (s : State) (n : Nat) : (s.advance n).io = s.io := rfl
@[simp] theorem State.advance_flash (s : State) (n : Nat) : (s.advance n).flash = s.flash := rfl
@[simp] theorem State.advance_irqHoldoff (s : State) (n : Nat) : (s.advance n).irqHoldoff = s.irqHoldoff := rfl
@[simp] theorem State.advance_run (s : State) (n : Nat) : (s.advance n).run = s.run := rfl
@[simp] theorem State.advance_irqPending (s : State) (n : Nat) : (s.advance n).irqPending = s.irqPending := rfl
@[simp] theorem State.advance_platform (s : State) (n : Nat) : (s.advance n).platform = s.platform := rfl

/-! `writeSpl` -/

@[simp] theorem State.writeSpl_cfg (s : State) (v : Byte) : (s.writeSpl v).cfg = s.cfg := rfl
@[simp] theorem State.writeSpl_regs (s : State) (v : Byte) : (s.writeSpl v).regs = s.regs := rfl
@[simp] theorem State.writeSpl_pc (s : State) (v : Byte) : (s.writeSpl v).pc = s.pc := rfl
@[simp] theorem State.writeSpl_sreg (s : State) (v : Byte) : (s.writeSpl v).sreg = s.sreg := rfl
@[simp] theorem State.writeSpl_sp (s : State) (v : Byte) : (s.writeSpl v).sp = BitVec.ofNat 16 ((s.sp.extractLsb' 8 8 ++ v).toNat % 2 ^ s.cfg.spBits) := rfl
@[simp] theorem State.writeSpl_rampx (s : State) (v : Byte) : (s.writeSpl v).rampx = s.rampx := rfl
@[simp] theorem State.writeSpl_rampy (s : State) (v : Byte) : (s.writeSpl v).rampy = s.rampy := rfl
@[simp] theorem State.writeSpl_rampz (s : State) (v : Byte) : (s.writeSpl v).rampz = s.rampz := rfl
@[simp] theorem State.writeSpl_rampd (s : State) (v : Byte) : (s.writeSpl v).rampd = s.rampd := rfl
@[simp] theorem State.writeSpl_eind (s : State) (v : Byte) : (s.writeSpl v).eind = s.eind := rfl
@[simp] theorem State.writeSpl_sram (s : State) (v : Byte) : (s.writeSpl v).sram = s.sram := rfl
@[simp] theorem State.writeSpl_io (s : State) (v : Byte) : (s.writeSpl v).io = s.io := rfl
@[simp] theorem State.writeSpl_flash (s : State) (v : Byte) : (s.writeSpl v).flash = s.flash := rfl
@[simp] theorem State.writeSpl_irqHoldoff (s : State) (v : Byte) : (s.writeSpl v).irqHoldoff = (s.irqHoldoff || s.cfg.isXmega) := rfl
@[simp] theorem State.writeSpl_run (s : State) (v : Byte) : (s.writeSpl v).run = s.run := rfl
@[simp] theorem State.writeSpl_irqPending (s : State) (v : Byte) : (s.writeSpl v).irqPending = s.irqPending := rfl
@[simp] theorem State.writeSpl_platform (s : State) (v : Byte) : (s.writeSpl v).platform = s.platform := rfl

/-! `writeSph` -/

@[simp] theorem State.writeSph_cfg (s : State) (v : Byte) : (s.writeSph v).cfg = s.cfg := rfl
@[simp] theorem State.writeSph_regs (s : State) (v : Byte) : (s.writeSph v).regs = s.regs := rfl
@[simp] theorem State.writeSph_pc (s : State) (v : Byte) : (s.writeSph v).pc = s.pc := rfl
@[simp] theorem State.writeSph_sreg (s : State) (v : Byte) : (s.writeSph v).sreg = s.sreg := rfl
@[simp] theorem State.writeSph_sp (s : State) (v : Byte) : (s.writeSph v).sp = BitVec.ofNat 16 ((v ++ s.sp.extractLsb' 0 8).toNat % 2 ^ s.cfg.spBits) := rfl
@[simp] theorem State.writeSph_rampx (s : State) (v : Byte) : (s.writeSph v).rampx = s.rampx := rfl
@[simp] theorem State.writeSph_rampy (s : State) (v : Byte) : (s.writeSph v).rampy = s.rampy := rfl
@[simp] theorem State.writeSph_rampz (s : State) (v : Byte) : (s.writeSph v).rampz = s.rampz := rfl
@[simp] theorem State.writeSph_rampd (s : State) (v : Byte) : (s.writeSph v).rampd = s.rampd := rfl
@[simp] theorem State.writeSph_eind (s : State) (v : Byte) : (s.writeSph v).eind = s.eind := rfl
@[simp] theorem State.writeSph_sram (s : State) (v : Byte) : (s.writeSph v).sram = s.sram := rfl
@[simp] theorem State.writeSph_io (s : State) (v : Byte) : (s.writeSph v).io = s.io := rfl
@[simp] theorem State.writeSph_flash (s : State) (v : Byte) : (s.writeSph v).flash = s.flash := rfl
@[simp] theorem State.writeSph_irqHoldoff (s : State) (v : Byte) : (s.writeSph v).irqHoldoff = s.irqHoldoff := rfl
@[simp] theorem State.writeSph_run (s : State) (v : Byte) : (s.writeSph v).run = s.run := rfl
@[simp] theorem State.writeSph_irqPending (s : State) (v : Byte) : (s.writeSph v).irqPending = s.irqPending := rfl
@[simp] theorem State.writeSph_platform (s : State) (v : Byte) : (s.writeSph v).platform = s.platform := rfl

/-! ## Reading a register -/

theorem State.reg_eq_of_regs {s t : State} (h : t.regs = s.regs) (r : Reg) : t.reg r = s.reg r := by
  simp [State.reg, h]

@[simp] theorem State.reg_setReg_same (s : State) (r : Reg) (v : Byte) : (s.setReg r v).reg r = v := by
  simp [State.reg]

theorem State.reg_setReg_other (s : State) {r q : Reg} (v : Byte) (h : q ≠ r) : (s.setReg r v).reg q = s.reg q := by
  have h' : r.toNat ≠ q.toNat := fun e => h (BitVec.eq_of_toNat_eq e.symm)
  simp [State.reg, h']

theorem State.reg_setReg (s : State) (r q : Reg) (v : Byte) :
    (s.setReg r v).reg q = if q = r then v else s.reg q := by
  split
  · next h => subst h; exact State.reg_setReg_same s q v
  · next h => exact State.reg_setReg_other s v h

theorem Reg.succ_ne (r : Reg) : r + 1 ≠ r := by
  revert r; decide

/-- The pair just written reads back. -/
@[simp] theorem State.pair_setPair (s : State) (r : Reg) (w : Word) : (s.setPair r w).pair r = w := by
  have h := Reg.succ_ne r
  simp only [State.pair, State.setPair, State.reg_setReg, if_true, if_neg h.symm]
  ext i hi
  simp only [BitVec.getElem_append, BitVec.getElem_extractLsb']
  split
  · next h8 => simp [BitVec.getLsbD_eq_getElem hi]
  · next h8 =>
    have : 8 + (i - 8) = i := by omega
    simp [this, BitVec.getLsbD_eq_getElem hi]

theorem State.reg_setPair (s : State) (r q : Reg) (w : Word) :
    (s.setPair r w).reg q =
      if q = r + 1 then w.extractLsb' 8 8 else if q = r then w.extractLsb' 0 8 else s.reg q := by
  simp only [State.setPair, State.reg_setReg]

@[simp] theorem State.setPc_reg (s : State) (n : Nat) (q : Reg) : (s.setPc n).reg q = s.reg q := rfl
@[simp] theorem State.setSreg_reg (s : State) (v : Byte) (q : Reg) : (s.setSreg v).reg q = s.reg q := rfl
@[simp] theorem State.writeSreg_reg (s : State) (v : Byte) (q : Reg) : (s.writeSreg v).reg q = s.reg q := rfl
@[simp] theorem State.setSp_reg (s : State) (n : Nat) (q : Reg) : (s.setSp n).reg q = s.reg q := rfl
@[simp] theorem State.setRampx_reg (s : State) (v : Byte) (q : Reg) : (s.setRampx v).reg q = s.reg q := rfl
@[simp] theorem State.setRampy_reg (s : State) (v : Byte) (q : Reg) : (s.setRampy v).reg q = s.reg q := rfl
@[simp] theorem State.setRampz_reg (s : State) (v : Byte) (q : Reg) : (s.setRampz v).reg q = s.reg q := rfl
@[simp] theorem State.setRampd_reg (s : State) (v : Byte) (q : Reg) : (s.setRampd v).reg q = s.reg q := rfl
@[simp] theorem State.setEind_reg (s : State) (v : Byte) (q : Reg) : (s.setEind v).reg q = s.reg q := rfl
@[simp] theorem State.setPlatform_reg (s : State) (p : Nat) (q : Reg) : (s.setPlatform p).reg q = s.reg q := rfl
@[simp] theorem State.setSram_reg (s : State) (m : Memory) (q : Reg) : (s.setSram m).reg q = s.reg q := rfl
@[simp] theorem State.setIo_reg (s : State) (m : Memory) (q : Reg) : (s.setIo m).reg q = s.reg q := rfl
@[simp] theorem State.setFlash_reg (s : State) (m : Memory) (q : Reg) : (s.setFlash m).reg q = s.reg q := rfl
@[simp] theorem State.setHoldoff_reg (s : State) (b : Bool) (q : Reg) : (s.setHoldoff b).reg q = s.reg q := rfl
@[simp] theorem State.setRun_reg (s : State) (r : RunState) (q : Reg) : (s.setRun r).reg q = s.reg q := rfl
@[simp] theorem State.setPending_reg (s : State) (p : List Nat) (q : Reg) : (s.setPending p).reg q = s.reg q := rfl
@[simp] theorem State.advance_reg (s : State) (n : Nat) (q : Reg) : (s.advance n).reg q = s.reg q := rfl
@[simp] theorem State.writeSpl_reg (s : State) (v : Byte) (q : Reg) : (s.writeSpl v).reg q = s.reg q := rfl
@[simp] theorem State.writeSph_reg (s : State) (v : Byte) (q : Reg) : (s.writeSph v).reg q = s.reg q := rfl

/-! ## Flags and pairs after an update -/

@[simp] theorem State.setSreg_flag (s : State) (v : Byte) (f : Flag) : (s.setSreg v).flag f = getFlag v f := rfl
@[simp] theorem State.writeSreg_flag (s : State) (v : Byte) (f : Flag) : (s.writeSreg v).flag f = getFlag v f := rfl
@[simp] theorem State.setReg_flag (s : State) (r : Reg) (v : Byte) (f : Flag) : (s.setReg r v).flag f = s.flag f := rfl
@[simp] theorem State.setPair_flag (s : State) (r : Reg) (w : Word) (f : Flag) : (s.setPair r w).flag f = s.flag f := rfl
@[simp] theorem State.setPc_flag (s : State) (n : Nat) (f : Flag) : (s.setPc n).flag f = s.flag f := rfl
@[simp] theorem State.advance_flag (s : State) (n : Nat) (f : Flag) : (s.advance n).flag f = s.flag f := rfl
@[simp] theorem State.setSp_flag (s : State) (n : Nat) (f : Flag) : (s.setSp n).flag f = s.flag f := rfl
@[simp] theorem State.setRampx_flag (s : State) (v : Byte) (f : Flag) : (s.setRampx v).flag f = s.flag f := rfl
@[simp] theorem State.setRampy_flag (s : State) (v : Byte) (f : Flag) : (s.setRampy v).flag f = s.flag f := rfl
@[simp] theorem State.setRampz_flag (s : State) (v : Byte) (f : Flag) : (s.setRampz v).flag f = s.flag f := rfl
@[simp] theorem State.setRampd_flag (s : State) (v : Byte) (f : Flag) : (s.setRampd v).flag f = s.flag f := rfl
@[simp] theorem State.setEind_flag (s : State) (v : Byte) (f : Flag) : (s.setEind v).flag f = s.flag f := rfl
@[simp] theorem State.setPlatform_flag (s : State) (p : Nat) (f : Flag) : (s.setPlatform p).flag f = s.flag f := rfl
@[simp] theorem State.setSram_flag (s : State) (m : Memory) (f : Flag) : (s.setSram m).flag f = s.flag f := rfl
@[simp] theorem State.setIo_flag (s : State) (m : Memory) (f : Flag) : (s.setIo m).flag f = s.flag f := rfl
@[simp] theorem State.setFlash_flag (s : State) (m : Memory) (f : Flag) : (s.setFlash m).flag f = s.flag f := rfl
@[simp] theorem State.setHoldoff_flag (s : State) (b : Bool) (f : Flag) : (s.setHoldoff b).flag f = s.flag f := rfl
@[simp] theorem State.setRun_flag (s : State) (r : RunState) (f : Flag) : (s.setRun r).flag f = s.flag f := rfl
@[simp] theorem State.setPending_flag (s : State) (p : List Nat) (f : Flag) : (s.setPending p).flag f = s.flag f := rfl
@[simp] theorem State.setPc_pair (s : State) (n : Nat) (q : Reg) : (s.setPc n).pair q = s.pair q := rfl
@[simp] theorem State.advance_pair (s : State) (n : Nat) (q : Reg) : (s.advance n).pair q = s.pair q := rfl
@[simp] theorem State.setSp_pair (s : State) (n : Nat) (q : Reg) : (s.setSp n).pair q = s.pair q := rfl
@[simp] theorem State.setRampx_pair (s : State) (v : Byte) (q : Reg) : (s.setRampx v).pair q = s.pair q := rfl
@[simp] theorem State.setRampy_pair (s : State) (v : Byte) (q : Reg) : (s.setRampy v).pair q = s.pair q := rfl
@[simp] theorem State.setRampz_pair (s : State) (v : Byte) (q : Reg) : (s.setRampz v).pair q = s.pair q := rfl
@[simp] theorem State.setRampd_pair (s : State) (v : Byte) (q : Reg) : (s.setRampd v).pair q = s.pair q := rfl
@[simp] theorem State.setEind_pair (s : State) (v : Byte) (q : Reg) : (s.setEind v).pair q = s.pair q := rfl
@[simp] theorem State.setPlatform_pair (s : State) (p : Nat) (q : Reg) : (s.setPlatform p).pair q = s.pair q := rfl
@[simp] theorem State.setSram_pair (s : State) (m : Memory) (q : Reg) : (s.setSram m).pair q = s.pair q := rfl
@[simp] theorem State.setIo_pair (s : State) (m : Memory) (q : Reg) : (s.setIo m).pair q = s.pair q := rfl
@[simp] theorem State.setFlash_pair (s : State) (m : Memory) (q : Reg) : (s.setFlash m).pair q = s.pair q := rfl
@[simp] theorem State.setHoldoff_pair (s : State) (b : Bool) (q : Reg) : (s.setHoldoff b).pair q = s.pair q := rfl
@[simp] theorem State.setRun_pair (s : State) (r : RunState) (q : Reg) : (s.setRun r).pair q = s.pair q := rfl
@[simp] theorem State.setPending_pair (s : State) (p : List Nat) (q : Reg) : (s.setPending p).pair q = s.pair q := rfl
@[simp] theorem State.setSreg_pair (s : State) (v : Byte) (q : Reg) : (s.setSreg v).pair q = s.pair q := rfl
@[simp] theorem State.writeSreg_pair (s : State) (v : Byte) (q : Reg) : (s.writeSreg v).pair q = s.pair q := rfl

end Sys2Proof.Machine
end

