-- ==== Sys2Proof/Laws/Ops.lean ====
section
/-! SUPPORT. What each shared operation can do, said once: sequencing, the checks before a meaning, the data space, the
stack. -/

namespace Sys2Proof.Machine

open Sys2Proof

/-! ## Sequencing and checks -/

@[simp] theorem andThen_next {α β : Type} (a : α) (f : α → Result β) : andThen (.next a) f = f a := rfl

/-- A sequence answers a next state when both parts do. -/
theorem andThen_eq_next {α β : Type} {x : Result α} {f : α → Result β} {b : β} :
    andThen x f = .next b ↔ ∃ a, x = .next a ∧ f a = .next b := by
  cases x <;> simp [andThen]

/-- An instruction completes only on a machine that implements it. -/
theorem requires_eq_next {i : Instr} {s t : State} {k : Result State} :
    requires i s k = .next t ↔ implements s.cfg i = true ∧ k = .next t := by
  unfold requires; split <;> simp_all

theorem requires_of {i : Instr} {s : State} {k : Result State} (h : implements s.cfg i = true) :
    requires i s k = k := by
  simp [requires, h]

theorem requires_not {i : Instr} {s : State} {k : Result State} (h : implements s.cfg i = false) :
    requires i s k = .fault (.notImplemented (mnemonic i)) := by
  simp [requires, h]

theorem requiresDisjoint_eq_next {i : Instr} {r lo : Reg} {t : State} {k : Result State} :
    requiresDisjoint i r lo k = .next t ↔ r ≠ lo ∧ r ≠ lo + 1 ∧ k = .next t := by
  unfold requiresDisjoint
  split
  · next h => exact ⟨fun hk => by simp at hk, fun hk => absurd h (by simp only [not_or]; exact ⟨hk.1, hk.2.1⟩)⟩
  · next h => exact ⟨fun hk => ⟨fun e => h (.inl e), fun e => h (.inr e), hk⟩, fun hk => hk.2.2⟩

theorem requiresDisjoint_of {i : Instr} {r lo : Reg} {k : Result State} (h : r ≠ lo) (h' : r ≠ lo + 1) :
    requiresDisjoint i r lo k = k := by
  exact if_neg fun e => e.elim h h'

/-! ## Places -/

/-- The I/O address of a place and its data address differ by the base of the map (R83). -/
theorem place_io {c : Config} {a : Nat} {p : BitVec 6} (h : place c a = .io p) : p.toNat + ioBase c = a := by
  unfold place at h
  unfold ioBase
  cases hm : c.memoryMap <;> simp only [hm] at h <;> repeat' split at h
  all_goals first
    | (simp only [Place.io.injEq] at h; subst h; simp only [BitVec.toNat_ofNat]; omega)
    | (simp only [sramPlace] at h; split at h <;> simp at h)
    | simp at h

/-- A byte of SRAM lies between `RAMSTART` and `RAMEND`. -/
theorem place_sram {c : Config} {a : Nat} (h : place c a = .sram) : c.ramStart ≤ a ∧ a ≤ c.ramEnd := by
  unfold place at h
  cases hm : c.memoryMap <;> simp only [hm] at h <;> repeat' split at h
  all_goals first
    | (simp only [sramPlace] at h; split at h
       · assumption
       · simp at h)
    | simp at h

/-! ## Devices and the data space -/

@[simp] theorem setPlatform_self (s : State) : s.setPlatform s.platform = s := rfl

/-- A device read changes at most the platform's own state, and nothing with the reference device (R100). -/
theorem deviceRead_state (a : Nat) (s : State) :
    ∃ p, (deviceRead a s).2 = s.setPlatform p ∧ (s.cfg.ioDevice = .reference → p = s.platform) := by
  cases h : s.cfg.ioDevice
  · exact ⟨s.platform, by simp [deviceRead, h], by simp⟩
  · exact ⟨(Config.deviceRead s.platform a).2, by simp only [deviceRead, h], by simp⟩

theorem ioRead_state (a : BitVec 6) (s : State) :
    ∃ p, (ioRead a s).2 = s.setPlatform p ∧ (s.cfg.ioDevice = .reference → p = s.platform) := by
  unfold ioRead
  split
  · exact ⟨s.platform, rfl, fun _ => rfl⟩
  · exact deviceRead_state _ s

/-- R84: a data-space read changes at most the platform's own state. -/
theorem memRead_state {a : Nat} {s t : State} {v : Byte} (h : memRead a s = .next (v, t)) :
    ∃ p, t = s.setPlatform p ∧ (s.cfg.ioDevice = .reference → p = s.platform) := by
  unfold memRead at h
  split at h
  · simp only [Host.Outcome.next.injEq, Prod.mk.injEq] at h; exact ⟨s.platform, by simp [h.2], fun _ => rfl⟩
  · next p _ =>
    obtain ⟨q, h1, h2⟩ := ioRead_state p s
    exact ⟨q, by simp only [Host.Outcome.next.injEq] at h; rw [← h1, h], h2⟩
  · obtain ⟨q, h1, h2⟩ := deviceRead_state a s
    exact ⟨q, by simp only [Host.Outcome.next.injEq] at h; rw [← h1, h], h2⟩
  · simp only [Host.Outcome.next.injEq, Prod.mk.injEq] at h; exact ⟨s.platform, by simp [h.2], fun _ => rfl⟩
  · simp at h

/-- R84, R89: a load completes at exactly the mapped addresses. -/
theorem memRead_complete {a : Nat} {s : State} (h : mapped s.cfg a = true) :
    ∃ v t, memRead a s = .next (v, t) ∧ s.dataByte a = some v := by
  suffices h' : ∃ v t, memRead a s = .next (v, t) by
    obtain ⟨v, t, e⟩ := h'
    exact ⟨v, t, e, by simp only [State.dataByte, e]⟩
  unfold mapped at h
  unfold memRead
  cases hp : place s.cfg a
  case nothing => simp [hp] at h
  all_goals exact ⟨_, _, rfl⟩

/-- R85, R89: a store completes at exactly the mapped addresses. -/
theorem memWrite_complete {a : Nat} {s : State} (v : Byte) (h : mapped s.cfg a = true) :
    ∃ t, memWrite a v s = .next t := by
  unfold mapped at h
  unfold memWrite
  cases hp : place s.cfg a <;> simp [hp] at h ⊢

/-- R85: what a completed store was. -/
theorem memWrite_cases {a : Nat} {v : Byte} {s t : State} (h : memWrite a v s = .next t) :
    (∃ r, place s.cfg a = .register r ∧ t = s.setReg r v) ∨
    (∃ p u, place s.cfg a = .io p ∧ cpuWrite s p v = some u ∧ t = u) ∨
    (∃ p, place s.cfg a = .io p ∧ cpuWrite s p v = none ∧ t = deviceWrite a v s) ∨
    (place s.cfg a = .device ∧ t = deviceWrite a v s) ∨
    (place s.cfg a = .sram ∧ t = s.setSram (Memory.write Memory.sramByte s.sram a v)) := by
  unfold memWrite at h
  split at h
  · next r hp => exact .inl ⟨r, hp, by simpa using h.symm⟩
  · next p hp =>
    simp only [Host.Outcome.next.injEq] at h
    unfold ioWrite at h
    split at h
    · next u hu => exact .inr (.inl ⟨p, u, hp, hu, h.symm⟩)
    · next hu =>
      rw [place_io hp] at h
      exact .inr (.inr (.inl ⟨p, hp, hu, h.symm⟩))
  · next hp => exact .inr (.inr (.inr (.inl ⟨hp, by simpa using h.symm⟩)))
  · next hp => exact .inr (.inr (.inr (.inr ⟨hp, by simpa using h.symm⟩)))
  · simp at h

/-- R87: what a write of a CPU register was. -/
theorem cpuWrite_cases {s t : State} {a : BitVec 6} {v : Byte} (h : cpuWrite s a v = some t) :
    (a = 0x3F ∧ t = s.writeSreg v) ∨ (a = 0x3E ∧ t = s.writeSph v) ∨ (a = 0x3D ∧ t = s.writeSpl v) ∨
    (a = 0x3C ∧ s.cfg.hasEind = true ∧ t = s.setEind v) ∨ (a = 0x3B ∧ s.cfg.hasRampZ = true ∧ t = s.setRampz v) ∨
    (a = 0x3A ∧ s.cfg.hasRampY = true ∧ t = s.setRampy v) ∨ (a = 0x39 ∧ s.cfg.hasRampX = true ∧ t = s.setRampx v) ∨
    (a = 0x38 ∧ s.cfg.hasRampD = true ∧ t = s.setRampd v) := by
  unfold cpuWrite at h
  repeat' split at h
  all_goals simp_all

/-! ## Bytes side by side, and the CPU registers that a store may land on -/

theorem toNat_append_word (r : Byte) (l : Word) : (r ++ l).toNat = r.toNat * 65536 + l.toNat := by
  have := l.isLt
  rw [BitVec.toNat_append, ← Nat.shiftLeft_add_eq_or_of_lt (by omega), Nat.shiftLeft_eq]

theorem toNat_append_byte (h l : Byte) : (h ++ l).toNat = h.toNat * 256 + l.toNat := by
  have := l.isLt
  rw [BitVec.toNat_append, ← Nat.shiftLeft_add_eq_or_of_lt (by omega), Nat.shiftLeft_eq]

theorem toNat_maskBits (n : Nat) (v : Byte) : (maskBits n v).toNat = v.toNat % 2 ^ n :=
  (BitVec.toNat_ofNat _ _).trans (Nat.mod_eq_of_lt (Nat.lt_of_le_of_lt (Nat.mod_le _ _) v.isLt))

/-- A store that lands on the I/O registers is a write of the I/O space. -/
theorem memWrite_io {a : Nat} {p : BitVec 6} {v : Byte} {s t : State} (hp : place s.cfg a = .io p)
    (h : memWrite a v s = .next t) : t = ioWrite p v s := by
  simp only [memWrite, hp, Host.Outcome.next.injEq] at h
  exact h.symm

/-- R49: what a completed store leaves in the CPU register it lands on. -/
theorem memWrite_held {a : Nat} {v : Byte} {s t : State} (h : memWrite a v s = .next t) :
    heldByCpuRegister s t a v ∧ heldBySp s t a v := by
  refine ⟨⟨?_, ?_, ?_, ?_, ?_, ?_⟩, ?_, ?_, ?_⟩
  · intro hp; rw [memWrite_io hp h]; rfl
  all_goals intro hp e; rw [memWrite_io hp h]
  all_goals first
    | (rw [← toNat_maskBits]; simp only [ioWrite, cpuWrite, e]; rfl)
    | (intro e2
       have hs : hasSp s.cfg = true := by simp [hasSp, e]
       apply BitVec.eq_of_toNat_eq
       have := v.isLt
       simp [ioWrite, cpuWrite, hs, e2, State.writeSph, State.writeSpl, State.setSp, State.setHoldoff,
         toNat_append_byte])
  all_goals omega

/-- A device write with the reference device lists the byte; another device changes only the platform's own state. -/
theorem deviceWrite_cases (a : Nat) (v : Byte) (s : State) :
    (s.cfg.ioDevice = .reference ∧ deviceWrite a v s = s.setIo (Memory.write Memory.ioByte s.io a v)) ∨
    (s.cfg.ioDevice = .platform ∧ ∃ p, deviceWrite a v s = s.setPlatform p) := by
  cases h : s.cfg.ioDevice <;> simp [deviceWrite, h]

/-! ## The stack -/

/-- R93: what a completed push was. -/
theorem push_eq_next {v : Byte} {s t : State} :
    push v s = .next t ↔ ∃ u, memWrite s.sp.toNat v s = .next u ∧ t = u.setSp (spBelow s) := by
  unfold push
  rw [andThen_eq_next]
  simp only [Host.Outcome.next.injEq, eq_comm]

/-- R94: what a completed pop was: SP one higher, a read there. -/
theorem pop_state {s t : State} {v : Byte} (h : pop s = .next (v, t)) :
    ∃ p, t = (s.setSp (s.sp.toNat + 1)).setPlatform p ∧ (s.cfg.ioDevice = .reference → p = s.platform) :=
  memRead_state h

/-- R95: what a completed pop of the PC was: two or three pops in a row. -/
theorem popPc_eq_next {s t : State} {n : Nat} :
    popPc s = .next (n, t) ↔ ∃ x2 x1 x0, popPcTop s = .next x2 ∧ pop x2.2 = .next x1 ∧ pop x1.2 = .next x0 ∧
      n = (x2.1 ++ (x1.1 ++ x0.1)).toNat ∧ t = x0.2 := by
  unfold popPc
  simp only [andThen_eq_next, Host.Outcome.next.injEq, Prod.mk.injEq]
  constructor
  · rintro ⟨x2, h2, x1, h1, x0, h0, rfl, rfl⟩; exact ⟨x2, x1, x0, h2, h1, h0, rfl, rfl⟩
  · rintro ⟨x2, x1, x0, h2, h1, h0, rfl, rfl⟩; exact ⟨x2, h2, x1, h1, x0, h0, rfl, rfl⟩

/-- R95: what a completed push of the PC was. -/
theorem pushPc_eq_next {r : BitVec 22} {s t : State} :
    pushPc r s = .next t ↔ ∃ s1 s2, push (r.extractLsb' 0 8) s = .next s1 ∧ push (r.extractLsb' 8 8) s1 = .next s2 ∧
      (if s.cfg.pcBits = 22 then push ((r.extractLsb' 16 6).setWidth 8) s2 else .next s2) = .next t := by
  unfold pushPc
  simp only [andThen_eq_next]
  constructor
  · rintro ⟨s1, h1, s2, h2, h3⟩; exact ⟨s1, s2, h1, h2, h3⟩
  · rintro ⟨s1, s2, h1, h2, h3⟩; exact ⟨s1, h1, s2, h2, h3⟩

/-! ## The registers of DES -/

theorem State.reg_setLowRegs (s : State) (v : Vector Byte 16) (r : Reg) :
    (s.setLowRegs v).reg r = if h : r.toNat < 16 then v[r.toNat]'h else s.reg r := by
  unfold State.reg State.setLowRegs withLow
  simp only [Vector.getElem_ofFn]

end Sys2Proof.Machine
end

