-- ==== Sys2Proof/Laws/Frame.lean ====
section
/-! SUPPORT. How a frame grows along the operations of a meaning: each lemma adds one operation to a state already framed. -/

namespace Sys2Proof.Machine

open Sys2Proof

namespace Frame

variable {c : Change} {s t : State}

/-- Nothing changed. -/
theorem refl (c : Change) (s : State) : Frame c s s := by constructor <;> intros <;> rfl

theorem setPc (h : Frame c s t) (n : Nat) : Frame c s (t.setPc n) := { h with }

theorem advance (h : Frame c s t) (n : Nat) : Frame c s (t.advance n) := { h with }

theorem setReg (h : Frame c s t) {r : Reg} (hr : r ∈ c.regs) (v : Byte) : Frame c s (t.setReg r v) :=
  { h with
    regs := fun q hq hp => by
      rw [State.reg_setReg_other t v fun e => hq (by rw [e]; exact hr)]
      exact h.regs q hq hp }

theorem setPair (h : Frame c s t) {r : Reg} (hr : r ∈ c.regs) (hr' : r + 1 ∈ c.regs) (w : Word) :
    Frame c s (t.setPair r w) := (h.setReg hr _).setReg hr' _

/-- SREG replaced, where every flag that is not listed has its old value. -/
theorem setSreg (h : Frame c s t) {v : Byte} (hv : ∀ f, f ∉ c.flags → getFlag v f = t.flag f) :
    Frame c s (t.setSreg v) :=
  { h with flags := fun f hf hp => (hv f hf).trans (h.flags f hf hp) }

theorem setSp (h : Frame c s t) (hc : c.sp = true) (n : Nat) : Frame c s (t.setSp n) :=
  { h with sp := fun e => by simp [hc] at e }

theorem setRun (h : Frame c s t) (hc : c.run = true) (r : RunState) : Frame c s (t.setRun r) :=
  { h with run := fun e => by simp [hc] at e }

theorem setHoldoff (h : Frame c s t) (hc : c.holdoff = true) (b : Bool) : Frame c s (t.setHoldoff b) :=
  { h with holdoff := fun e => by simp [hc] at e }

theorem setPlatform (h : Frame c s t) {p : Nat}
    (hp : s.cfg.ioDevice = .reference → s.cfg.irq = .reference → c.program = false → p = t.platform) :
    Frame c s (t.setPlatform p) :=
  { h with platform := fun e e' e'' => (hp e e' e'').trans (h.platform e e' e'') }

theorem setRamp (h : Frame c s t) {p : Ptr} (hp : p ∈ c.ramps) (v : Byte) : Frame c s (p.setRamp t v) := by
  cases p
  · exact { h with rampx := fun e => absurd hp e }
  · exact { h with rampy := fun e => absurd hp e }
  · exact { h with rampz := fun e => absurd hp e }

/-- The pointer written back, its RAMP register with it only where that takes part in the address (R92). -/
theorem setPtr (h : Frame c s t) {p : Ptr} (hr : ∀ r ∈ p.regs, r ∈ c.regs)
    (hp : p.extended s.cfg = true → p ∈ c.ramps) (a : Nat) : Frame c s (Machine.setPtr p a t) := by
  have h1 : Frame c s (t.setPair p.lo (BitVec.ofNat 16 a)) :=
    h.setPair (hr _ (by simp [Ptr.regs])) (hr _ (by simp [Ptr.regs])) _
  unfold Machine.setPtr
  split
  · next e => exact h1.setRamp (hp (h1.cfg ▸ e)) _
  · exact h1

/-- A device read. -/
theorem deviceRead (h : Frame c s t) (a : Nat) : Frame c s (deviceRead a t).2 := by
  obtain ⟨p, e, hp⟩ := deviceRead_state a t
  rw [e]; exact h.setPlatform fun e' _ _ => hp (h.cfg ▸ e')

theorem ioRead (h : Frame c s t) (a : BitVec 6) : Frame c s (ioRead a t).2 := by
  obtain ⟨p, e, hp⟩ := ioRead_state a t
  rw [e]; exact h.setPlatform fun e' _ _ => hp (h.cfg ▸ e')

theorem memRead (h : Frame c s t) {a : Nat} {x : Byte × State} (hr : memRead a t = .next x) : Frame c s x.2 := by
  obtain ⟨p, e, hp⟩ := memRead_state (v := x.1) (t := x.2) hr
  rw [e]; exact h.setPlatform fun e' _ _ => hp (h.cfg ▸ e')

theorem pop (h : Frame c s t) (hc : c.sp = true) {x : Byte × State} (hr : pop t = .next x) : Frame c s x.2 :=
  (h.setSp hc _).memRead hr

/-- A store, whose address is listed. -/
theorem memWrite (h : Frame c s t) {a : Nat} (ha : a ∈ c.stores) {v : Byte} {u : State}
    (hw : memWrite a v t = .next u) : Frame c s u := by
  have hc : t.cfg = s.cfg := h.cfg
  have dev : Frame c s (deviceWrite a v t) := by
    rcases deviceWrite_cases a v t with ⟨_, e⟩ | ⟨e', p, e⟩
    · rw [e]
      exact { h with
        io := fun hp b hb => by
          rw [← h.io hp b hb]
          exact Memory.read_write_other _ _ _ fun e => hb (e ▸ ha) }
    · rw [e]; exact h.setPlatform fun e'' => by simp [← hc, e'] at e''
  rcases memWrite_cases hw with ⟨r, hp, rfl⟩ | ⟨p, w, hp, hcw, rfl⟩ | ⟨p, hp, _, rfl⟩ | ⟨hp, rfl⟩ | ⟨hp, rfl⟩
  · exact { h with
      regs := fun q hq hn => by
        rw [State.reg_setReg_other _ _ fun e => hn ⟨a, ha, by rw [← hc, hp, e]⟩]
        exact h.regs q hq hn }
  · have hit : c.hits s (.io p) := ⟨a, ha, by rw [← hc, hp]⟩
    rcases cpuWrite_cases hcw with ⟨rfl, rfl⟩ | ⟨rfl, rfl⟩ | ⟨rfl, rfl⟩ | ⟨rfl, _, rfl⟩ | ⟨rfl, _, rfl⟩ | ⟨rfl, _, rfl⟩ |
      ⟨rfl, _, rfl⟩ | ⟨rfl, _, rfl⟩
    · exact { h with flags := fun f _ hn => absurd hit hn, holdoff := fun _ hn => absurd hit hn }
    · exact { h with sp := fun _ _ hn => absurd hit hn }
    · exact { h with sp := fun _ hn => absurd hit hn, holdoff := fun _ _ hn => absurd hit hn }
    · exact { h with eind := fun hn => absurd hit hn }
    · exact { h with rampz := fun _ hn => absurd hit hn }
    · exact { h with rampy := fun _ hn => absurd hit hn }
    · exact { h with rampx := fun _ hn => absurd hit hn }
    · exact { h with rampd := fun hn => absurd hit hn }
  · exact dev
  · exact dev
  · exact { h with
      sram := fun b hb => by
        rw [← h.sram b hb]
        exact Memory.read_write_other _ _ _ fun e => hb (e ▸ ha) }

theorem push (h : Frame c s t) (ha : t.sp.toNat ∈ c.stores) (hc : c.sp = true) {v : Byte} {u : State}
    (hw : push v t = .next u) : Frame c s u := by
  obtain ⟨w, hm, rfl⟩ := push_eq_next.mp hw
  exact (h.memWrite ha hm).setSp hc _

end Frame

end Sys2Proof.Machine
end

