-- ==== Sys2Proof/Laws/Invariant.lean ====
section
/-! SUPPORT. The invariant along the operations of a meaning: each operation keeps it. -/

namespace Sys2Proof.Machine

open Sys2Proof

theorem toNat_ofNat_mod_lt (w n b : Nat) : (BitVec.ofNat w (n % 2 ^ b)).toNat < 2 ^ b := by
  rw [BitVec.toNat_ofNat]
  exact Nat.lt_of_le_of_lt (Nat.mod_le _ _) (Nat.mod_lt _ (Nat.two_pow_pos b))

theorem maskBits_lt (n : Nat) (v : Byte) : (maskBits n v).toNat < 2 ^ n := toNat_ofNat_mod_lt 8 v.toNat n

section

variable {s : State} (h : Invariant s)

include h

theorem Invariant.setReg (r : Reg) (v : Byte) : Invariant (s.setReg r v) := h
theorem Invariant.setPair (r : Reg) (w : Word) : Invariant (s.setPair r w) := h
theorem Invariant.setSreg (v : Byte) : Invariant (s.setSreg v) := h
theorem Invariant.writeSreg (v : Byte) : Invariant (s.writeSreg v) := h
theorem Invariant.setHoldoff (b : Bool) : Invariant (s.setHoldoff b) := h
theorem Invariant.setRun (r : RunState) : Invariant (s.setRun r) := h
theorem Invariant.setPending (p : List Nat) : Invariant (s.setPending p) := h
theorem Invariant.setPlatform (p : Nat) : Invariant (s.setPlatform p) := h
theorem Invariant.setLowRegs (v : Vector Byte 16) : Invariant (s.setLowRegs v) := h

theorem Invariant.setPc (n : Nat) : Invariant (s.setPc n) := ⟨toNat_ofNat_mod_lt 22 n _, h.2⟩

theorem Invariant.advance (n : Nat) : Invariant (s.advance n) := h.setPc _

theorem Invariant.setSp (n : Nat) : Invariant (s.setSp n) := ⟨h.1, toNat_ofNat_mod_lt 16 n _, h.2.2⟩

theorem Invariant.setRampx (v : Byte) (hc : s.cfg.hasRampX = true) : Invariant (s.setRampx v) := by
  obtain ⟨h1, h2, ⟨_, hy, hz, hd, he⟩, ⟨_, ay, az, ad, ae⟩, h5⟩ := h
  exact ⟨h1, h2, ⟨maskBits_lt _ v, hy, hz, hd, he⟩, ⟨fun e => by simp [hc] at e, ay, az, ad, ae⟩, h5⟩

theorem Invariant.setRampy (v : Byte) (hc : s.cfg.hasRampY = true) : Invariant (s.setRampy v) := by
  obtain ⟨h1, h2, ⟨hx, _, hz, hd, he⟩, ⟨ax, _, az, ad, ae⟩, h5⟩ := h
  exact ⟨h1, h2, ⟨hx, maskBits_lt _ v, hz, hd, he⟩, ⟨ax, fun e => by simp [hc] at e, az, ad, ae⟩, h5⟩

theorem Invariant.setRampz (v : Byte) (hc : s.cfg.hasRampZ = true) : Invariant (s.setRampz v) := by
  obtain ⟨h1, h2, ⟨hx, hy, _, hd, he⟩, ⟨ax, ay, _, ad, ae⟩, h5⟩ := h
  exact ⟨h1, h2, ⟨hx, hy, maskBits_lt _ v, hd, he⟩, ⟨ax, ay, fun e => by simp [hc] at e, ad, ae⟩, h5⟩

theorem Invariant.setRampd (v : Byte) (hc : s.cfg.hasRampD = true) : Invariant (s.setRampd v) := by
  obtain ⟨h1, h2, ⟨hx, hy, hz, _, he⟩, ⟨ax, ay, az, _, ae⟩, h5⟩ := h
  exact ⟨h1, h2, ⟨hx, hy, hz, maskBits_lt _ v, he⟩, ⟨ax, ay, az, fun e => by simp [hc] at e, ae⟩, h5⟩

theorem Invariant.setEind (v : Byte) (hc : s.cfg.hasEind = true) : Invariant (s.setEind v) := by
  obtain ⟨h1, h2, ⟨hx, hy, hz, hd, _⟩, ⟨ax, ay, az, ad, _⟩, h5⟩ := h
  exact ⟨h1, h2, ⟨hx, hy, hz, hd, maskBits_lt _ v⟩, ⟨ax, ay, az, ad, fun e => by simp [hc] at e⟩, h5⟩

theorem Invariant.setRamp (p : Ptr) (v : Byte) (hc : p.extended s.cfg = true) : Invariant (p.setRamp s v) := by
  cases p
  · exact h.setRampx v hc
  · exact h.setRampy v hc
  · exact h.setRampz v (by simp only [Ptr.extended, Bool.and_eq_true] at hc; exact hc.1)

theorem Invariant.setPtr (p : Ptr) (a : Nat) : Invariant (setPtr p a s) := by
  unfold Machine.setPtr
  split
  · next hc => exact Invariant.setRamp (h.setPair p.lo _) p _ hc
  · exact h.setPair _ _

theorem Invariant.deviceRead (a : Nat) : Invariant (deviceRead a s).2 := by
  obtain ⟨p, e, _⟩ := deviceRead_state a s
  rw [e]; exact h.setPlatform p

theorem Invariant.ioRead (a : BitVec 6) : Invariant (ioRead a s).2 := by
  obtain ⟨p, e, _⟩ := ioRead_state a s
  rw [e]; exact h.setPlatform p

theorem Invariant.memRead {a : Nat} {x : Byte × State} (hr : memRead a s = .next x) : Invariant x.2 := by
  obtain ⟨p, e, _⟩ := memRead_state (v := x.1) (t := x.2) hr
  rw [e]; exact h.setPlatform p

theorem Invariant.pop {x : Byte × State} (hr : pop s = .next x) : Invariant x.2 := (h.setSp _).memRead hr

theorem Invariant.deviceWrite (a : Nat) (v : Byte) : Invariant (deviceWrite a v s) := by
  rcases deviceWrite_cases a v s with ⟨_, e⟩ | ⟨_, p, e⟩
  · rw [e]
    obtain ⟨h1, h2, h3, h4, h5, h6, h7⟩ := h
    exact ⟨h1, h2, h3, h4, h5, Memory.write_wf _ _ _ _ h6, h7⟩
  · rw [e]; exact h.setPlatform p

theorem Invariant.memWrite {a : Nat} {v : Byte} {t : State} (hw : memWrite a v s = .next t) : Invariant t := by
  rcases memWrite_cases hw with ⟨r, _, rfl⟩ | ⟨p, u, _, hcw, rfl⟩ | ⟨p, _, _, rfl⟩ | ⟨_, rfl⟩ | ⟨hp, rfl⟩
  · exact h.setReg _ _
  · rcases cpuWrite_cases hcw with ⟨_, rfl⟩ | ⟨_, rfl⟩ | ⟨_, rfl⟩ | ⟨_, hc, rfl⟩ | ⟨_, hc, rfl⟩ | ⟨_, hc, rfl⟩ |
      ⟨_, hc, rfl⟩ | ⟨_, hc, rfl⟩
    · exact h.writeSreg v
    · exact h.setSp _
    · exact (h.setSp _).setHoldoff _
    · exact h.setEind v hc
    · exact h.setRampz v hc
    · exact h.setRampy v hc
    · exact h.setRampx v hc
    · exact h.setRampd v hc
  · exact h.deviceWrite _ _
  · exact h.deviceWrite _ _
  · obtain ⟨h1, h2, h3, h4, ⟨h5, h5'⟩, h6, h7⟩ := h
    refine ⟨h1, h2, h3, h4, ⟨Memory.write_wf _ _ _ _ h5, fun c hc => ?_⟩, h6, h7⟩
    rcases Memory.mem_write _ _ _ _ hc with hc | ⟨rfl, _⟩
    · exact h5' c hc
    · exact place_sram hp

theorem Invariant.push {v : Byte} {t : State} (hw : push v s = .next t) : Invariant t := by
  obtain ⟨u, hm, rfl⟩ := push_eq_next.mp hw
  exact (h.memWrite hm).setSp _

end

/-- The memories after reset are in canonical form. -/
theorem State.reset_memories_wf :
    Memory.wf Memory.sramByte State.reset.sram ∧ Memory.wf Memory.ioByte State.reset.io ∧
      Memory.wf Memory.flashByte State.reset.flash :=
  ⟨Memory.nil_wf _, Memory.nil_wf _, Memory.nil_wf _⟩

end Sys2Proof.Machine
end

