-- ==== Sys2Proof/Laws/Operands.lean ====
section
/-! SUPPORT. What each operand form, the interrupt entry, the return and the step can do when they answer a next state,
said once. -/

namespace Sys2Proof.Machine

open Sys2Proof

theorem loadFrom_eq_next {a : Nat} {d : Reg} {after : State → State} {len : Nat} {s t : State} :
    loadFrom a d after len s = .next t ↔
      ∃ v u, memRead a s = .next (v, u) ∧ t = (after (u.setReg d v)).advance len := by
  rw [loadFrom, andThen_eq_next, Prod.exists]
  simp only [Host.Outcome.next.injEq, eq_comm]

theorem storeTo_eq_next {a : Nat} {v : Byte} {after : State → State} {len : Nat} {s t : State} :
    storeTo a v after len s = .next t ↔ ∃ u, memWrite a v s = .next u ∧ t = (after u).advance len := by
  rw [storeTo, andThen_eq_next]
  simp only [Host.Outcome.next.injEq, eq_comm]

/-- R92: the address through a pointer, spelled out on its parts. -/
theorem dataAddr_of_parts {s : State} {p : Ptr} {ramp : Byte} {port : BitVec 6} {ext : Bool} {low : Word}
    (h : pointerParts s p ramp port ext low) :
    dataAddr p s = addressOf ext ramp low ∧ p.modulus s.cfg = addressModulus ext ∧ p.extended s.cfg = ext ∧
      p.ramp s = ramp := by
  rcases h with ⟨rfl, rfl, rfl, rfl, rfl⟩ | ⟨rfl, rfl, rfl, rfl, rfl⟩ | ⟨rfl, rfl, rfl, rfl, rfl⟩ <;>
    refine ⟨?_, rfl, rfl, rfl⟩ <;>
    simp only [dataAddr, Ptr.extended, Ptr.ramp, addressOf, Ptr.lo] <;>
    split <;> simp [toNat_append_word, *]

@[simp] theorem setPtr_pair (p : Ptr) (n : Nat) (s : State) : (setPtr p n s).pair p.lo = BitVec.ofNat 16 n := by
  have h := State.pair_setPair s p.lo (BitVec.ofNat 16 n)
  unfold setPtr
  dsimp only
  split
  · exact Eq.trans (by cases p <;> rfl) h
  · exact h

theorem setPtr_ramp (p : Ptr) (n : Nat) (s : State) :
    p.ramp (setPtr p n s) =
      if p.extended s.cfg then maskBits s.cfg.rampBits (BitVec.ofNat 8 (n / 65536)) else p.ramp s := by
  unfold setPtr
  dsimp only
  split <;> cases p <;> rfl

theorem readModifyWrite_eq_next {f : Byte → Byte → Byte} {d : Reg} {s t : State} :
    readModifyWrite f d s = .next t ↔
      ∃ v u w, memRead (dataAddr .z s) s = .next (v, u) ∧ memWrite (dataAddr .z s) (f v (s.reg d)) u = .next w ∧
        t = (w.setReg d v).advance 1 := by
  simp only [readModifyWrite, andThen_eq_next, Prod.exists, Host.Outcome.next.injEq]
  constructor
  · rintro ⟨v, u, h, w, h', e⟩
    exact ⟨v, u, w, h, h', e.symm⟩
  · rintro ⟨v, u, w, h, h', e⟩
    exact ⟨v, u, h, w, h', e.symm⟩

theorem loadProgram_eq_next {b : Nat} {d : Reg} {after : State → State} {s t : State} :
    loadProgram b d after s = .next t ↔
      b / 2 < s.cfg.flashWords ∧ t = (after (s.setReg d (s.flashAt b))).advance 1 := by
  unfold loadProgram progByte
  split <;> simp [andThen, *, eq_comm]

theorem skipIf_eq_next {cond : Bool} {s t : State} :
    skipIf cond s = .next t ↔
      (cond = false ∧ t = s.advance 1) ∨
        ∃ w, cond = true ∧ progWord (s.nextPc 1) s = .next w ∧ t = s.advance (1 + wordLength w) := by
  cases cond <;> simp only [skipIf, andThen_eq_next, Host.Outcome.next.injEq, @eq_comm State t, if_true,
    Bool.false_eq_true, if_false] <;> simp

theorem callTo_eq_next {target len : Nat} {s t : State} :
    callTo target len s = .next t ↔
      ∃ u, pushPc (BitVec.ofNat 22 (s.nextPc len)) s = .next u ∧ t = u.setPc target := by
  rw [callTo, andThen_eq_next]
  simp only [Host.Outcome.next.injEq, eq_comm]

theorem takeInterrupt_eq_next {n : Nat} {s t : State} :
    takeInterrupt n s = .next t ↔
      s.cfg.core ≠ .avr1 ∧ ∃ u v, pushPc s.pc s = .next u ∧ v = (acknowledge n (clearIOnEntry u)).setRun .running ∧
        t = v.setPc (vectorAddress v n) := by
  unfold takeInterrupt
  split <;> simp only [andThen_eq_next, Host.Outcome.next.injEq, @eq_comm State t] <;> simp [*]

theorem returnFromInterrupt_eq_next {s t : State} :
    returnFromInterrupt s = .next t ↔ ∃ n u, popPc s = .next (n, u) ∧ t = finishReti (u.setPc n) := by
  rw [returnFromInterrupt, andThen_eq_next, Prod.exists]
  simp only [Host.Outcome.next.injEq, eq_comm]

theorem fetch_eq_next {s : State} {i : Instr} :
    fetch s = .next i ↔
      ∃ w k, progWord s.pc.toNat s = .next w ∧ secondWord w s = .next k ∧ decodeWords w k = some i := by
  simp only [fetch, andThen_eq_next, decodeOrFault]
  constructor
  · rintro ⟨w, hw, k, hk, h⟩
    refine ⟨w, k, hw, hk, ?_⟩
    cases e : decodeWords w k <;> simp_all
  · rintro ⟨w, k, hw, hk, h⟩
    exact ⟨w, hw, k, hk, by simp [h]⟩

/-- Everything a step that answers a next state can have done. -/
theorem step_eq_next {s t : State} :
    step s = .next t ↔
      (s.run = .stopped ∧ t = s) ∨
      (s.run ≠ .stopped ∧ ∃ n, interruptDue s = some n ∧ takeInterrupt n s = .next t) ∨
      (s.run = .sleeping ∧ interruptDue s = none ∧ t = s) ∨
      (s.run = .running ∧ interruptDue s = none ∧ ∃ i, fetch s = .next i ∧ exec i (s.setHoldoff false) = .next t) := by
  unfold step stepWith activity
  cases hr : s.run <;> cases hi : interruptDue s <;> simp [andThen_eq_next, @eq_comm State t]

end Sys2Proof.Machine
end

