-- ==== Sys2Proof/Laws/PerInstr.lean ====
section
/-! SUPPORT. One lemma per instruction: its encoding has as many words as its first word tells (spec/30_encoding.md R120,
R121). -/

namespace Sys2Proof

set_option Elab.async false

/-- The encoding is as long as its first word says (R121). -/
def Laws.EncodedLength.Statement (i : Instr) : Prop := (encode i).length = wordLength (firstWord i)

/-- A word that differs in some bit from each of the two patterns of R121 is a one-word instruction. -/
theorem wordLength_of_bits {w : Word} (a b : Nat) (ha : (0xFC0F#16).getLsbD a = true)
    (hb : (0xFE0C#16).getLsbD b = true) (h1 : w.getLsbD a ≠ (0x9000#16).getLsbD a)
    (h2 : w.getLsbD b ≠ (0x940C#16).getLsbD b) : 1 = wordLength w := by
  have n1 : w &&& 0xFC0F#16 ≠ 0x9000#16 := fun e => h1 (by rw [← e, BitVec.getLsbD_and, ha, Bool.and_true])
  have n2 : w &&& 0xFE0C#16 ≠ 0x940C#16 := fun e => h2 (by rw [← e, BitVec.getLsbD_and, hb, Bool.and_true])
  simp [wordLength, n1, n2]

/-! One lemma per format of R123 with one-word instructions. -/

theorem one_encRR {op : BitVec 6} (d r : Reg) (h : op.getLsbD 5 = false ∨ op.getLsbD 1 = true) :
    1 = wordLength (encRR op d r) := by
  have b15 : (encRR op d r).getLsbD 15 = op.getLsbD 5 := by
    unfold encRR
    erw [BitVec.getLsbD_append, BitVec.getLsbD_append, BitVec.getLsbD_append]
    rfl
  have b11 : (encRR op d r).getLsbD 11 = op.getLsbD 1 := by
    unfold encRR
    erw [BitVec.getLsbD_append, BitVec.getLsbD_append, BitVec.getLsbD_append]
    rfl
  rcases h with h | h
  · exact wordLength_of_bits 15 15 rfl rfl (by rw [b15, h]; decide) (by rw [b15, h]; decide)
  · exact wordLength_of_bits 11 11 rfl rfl (by rw [b11, h]; decide) (by rw [b11, h]; decide)

theorem one_encImm8 {op : BitVec 4} (d : Reg) (k : Byte) (h : op.getLsbD 3 = false ∨ op.getLsbD 2 = true) :
    1 = wordLength (encImm8 op d k) := by
  have b15 : (encImm8 op d k).getLsbD 15 = op.getLsbD 3 := by
    unfold encImm8
    erw [BitVec.getLsbD_append, BitVec.getLsbD_append, BitVec.getLsbD_append]
    rfl
  have b14 : (encImm8 op d k).getLsbD 14 = op.getLsbD 2 := by
    unfold encImm8
    erw [BitVec.getLsbD_append, BitVec.getLsbD_append, BitVec.getLsbD_append]
    rfl
  rcases h with h | h
  · exact wordLength_of_bits 15 15 rfl rfl (by rw [b15, h]; decide) (by rw [b15, h]; decide)
  · exact wordLength_of_bits 14 14 rfl rfl (by rw [b14, h]; decide) (by rw [b14, h]; decide)

theorem one_encMulQ (o1 o0 : BitVec 1) (d r : Reg) : 1 = wordLength (encMulQ o1 o0 d r) := by
  unfold encMulQ
  generalize d.extractLsb' 0 3 = x
  generalize r.extractLsb' 0 3 = y
  revert o1 o0 x y; decide +kernel

theorem one_encDisp (s y : BitVec 1) (d : Reg) (q : BitVec 6) : 1 = wordLength (encDisp s y d q) := by
  have b12 : (encDisp s y d q).getLsbD 12 = false := by
    unfold encDisp
    erw [BitVec.getLsbD_append, BitVec.getLsbD_append, BitVec.getLsbD_append, BitVec.getLsbD_append,
      BitVec.getLsbD_append, BitVec.getLsbD_append]
    rfl
  exact wordLength_of_bits 12 12 rfl rfl (by rw [b12]; decide) (by rw [b12]; decide)

theorem one_encLs (s : BitVec 1) (d : Reg) {op : BitVec 4} (h : op ≠ 0) : 1 = wordLength (encLs s d op) := by
  revert s d op h; decide +kernel

theorem one_encR (d : Reg) {op : BitVec 4} (h : op < 12) : 1 = wordLength (encR d op) := by
  revert d op h; decide +kernel

theorem one_encSreg (b : BitVec 1) (s : BitVec 3) : 1 = wordLength (encSreg b s) := by
  revert b s; decide +kernel

theorem one_encIw (o : BitVec 1) (d : Reg) (k : BitVec 6) : 1 = wordLength (encIw o d k) := by
  unfold encIw
  generalize d.extractLsb' 1 2 = x
  generalize k.extractLsb' 4 2 = y
  generalize k.extractLsb' 0 4 = z
  revert o x y z; decide +kernel

theorem one_encIoBit (op : BitVec 2) (a : BitVec 5) (b : BitVec 3) : 1 = wordLength (encIoBit op a b) := by
  revert op a b; decide +kernel

theorem one_encIo (s : BitVec 1) (d : Reg) (a : BitVec 6) : 1 = wordLength (encIo s d a) := by
  unfold encIo
  generalize a.extractLsb' 4 2 = x
  generalize a.extractLsb' 0 4 = y
  revert s d x y; decide +kernel

theorem one_encBr (b : BitVec 1) (s : BitVec 3) (k : BitVec 7) : 1 = wordLength (encBr b s k) := by
  revert b s k; decide +kernel

theorem one_encRBit (op : BitVec 2) (d : Reg) (b : BitVec 3) : 1 = wordLength (encRBit op d b) := by
  revert op d b; decide +kernel

/-- The words of two 4-bit fields under a fixed high byte: MOVW and MULS. -/
theorem one_movw (x y : BitVec 4) : 1 = wordLength (0x01#8 ++ x ++ y) ∧ 1 = wordLength (0x02#8 ++ x ++ y) := by
  revert x y; decide +kernel

theorem one_relative (k : BitVec 12) : 1 = wordLength (0xC#4 ++ k) ∧ 1 = wordLength (0xD#4 ++ k) := by
  revert k; decide +kernel

/-- The first word of LDS and of STS tells two words. -/
theorem wordLength_encLs (s : BitVec 1) (d : Reg) : 2 = wordLength (encLs s d 0) := by
  revert s d; decide +kernel

/-- The first word of JMP and of CALL tells two words. -/
theorem wordLength_encAbs22 (c : BitVec 1) (k : BitVec 22) : 2 = wordLength (encAbs22 c k) := by
  simp only [encAbs22]
  generalize k.extractLsb' 17 5 = x
  generalize k.extractLsb' 16 1 = y
  revert c x y; decide +kernel

/-! One lemma per instruction. -/

theorem Laws.EncodedLength.nop : Laws.EncodedLength.Statement (.nop) := rfl
theorem Laws.EncodedLength.movw (d : Reg) (r : Reg) : Laws.EncodedLength.Statement (.movw d r) := (one_movw _ _).1
theorem Laws.EncodedLength.muls (d : Reg) (r : Reg) : Laws.EncodedLength.Statement (.muls d r) := (one_movw _ _).2
theorem Laws.EncodedLength.mulsu (d : Reg) (r : Reg) : Laws.EncodedLength.Statement (.mulsu d r) := one_encMulQ _ _ _ _
theorem Laws.EncodedLength.fmul (d : Reg) (r : Reg) : Laws.EncodedLength.Statement (.fmul d r) := one_encMulQ _ _ _ _
theorem Laws.EncodedLength.fmuls (d : Reg) (r : Reg) : Laws.EncodedLength.Statement (.fmuls d r) := one_encMulQ _ _ _ _
theorem Laws.EncodedLength.fmulsu (d : Reg) (r : Reg) : Laws.EncodedLength.Statement (.fmulsu d r) :=
  one_encMulQ _ _ _ _
theorem Laws.EncodedLength.cpc (d : Reg) (r : Reg) : Laws.EncodedLength.Statement (.cpc d r) :=
  one_encRR _ _ (by decide)
theorem Laws.EncodedLength.sbc (d : Reg) (r : Reg) : Laws.EncodedLength.Statement (.sbc d r) :=
  one_encRR _ _ (by decide)
theorem Laws.EncodedLength.add (d : Reg) (r : Reg) : Laws.EncodedLength.Statement (.add d r) :=
  one_encRR _ _ (by decide)
theorem Laws.EncodedLength.cpse (d : Reg) (r : Reg) : Laws.EncodedLength.Statement (.cpse d r) :=
  one_encRR _ _ (by decide)
theorem Laws.EncodedLength.cp (d : Reg) (r : Reg) : Laws.EncodedLength.Statement (.cp d r) := one_encRR _ _ (by decide)
theorem Laws.EncodedLength.sub (d : Reg) (r : Reg) : Laws.EncodedLength.Statement (.sub d r) :=
  one_encRR _ _ (by decide)
theorem Laws.EncodedLength.adc (d : Reg) (r : Reg) : Laws.EncodedLength.Statement (.adc d r) :=
  one_encRR _ _ (by decide)
theorem Laws.EncodedLength.and (d : Reg) (r : Reg) : Laws.EncodedLength.Statement (.and d r) :=
  one_encRR _ _ (by decide)
theorem Laws.EncodedLength.eor (d : Reg) (r : Reg) : Laws.EncodedLength.Statement (.eor d r) :=
  one_encRR _ _ (by decide)
theorem Laws.EncodedLength.or (d : Reg) (r : Reg) : Laws.EncodedLength.Statement (.or d r) := one_encRR _ _ (by decide)
theorem Laws.EncodedLength.mov (d : Reg) (r : Reg) : Laws.EncodedLength.Statement (.mov d r) :=
  one_encRR _ _ (by decide)
theorem Laws.EncodedLength.cpi (d : Reg) (k : Byte) : Laws.EncodedLength.Statement (.cpi d k) :=
  one_encImm8 _ _ (by decide)
theorem Laws.EncodedLength.sbci (d : Reg) (k : Byte) : Laws.EncodedLength.Statement (.sbci d k) :=
  one_encImm8 _ _ (by decide)
theorem Laws.EncodedLength.subi (d : Reg) (k : Byte) : Laws.EncodedLength.Statement (.subi d k) :=
  one_encImm8 _ _ (by decide)
theorem Laws.EncodedLength.ori (d : Reg) (k : Byte) : Laws.EncodedLength.Statement (.ori d k) :=
  one_encImm8 _ _ (by decide)
theorem Laws.EncodedLength.andi (d : Reg) (k : Byte) : Laws.EncodedLength.Statement (.andi d k) :=
  one_encImm8 _ _ (by decide)
theorem Laws.EncodedLength.lddZ (d : Reg) (q : BitVec 6) : Laws.EncodedLength.Statement (.lddZ d q) :=
  one_encDisp _ _ _ _
theorem Laws.EncodedLength.lddY (d : Reg) (q : BitVec 6) : Laws.EncodedLength.Statement (.lddY d q) :=
  one_encDisp _ _ _ _
theorem Laws.EncodedLength.stdZ (q : BitVec 6) (r : Reg) : Laws.EncodedLength.Statement (.stdZ q r) :=
  one_encDisp _ _ _ _
theorem Laws.EncodedLength.stdY (q : BitVec 6) (r : Reg) : Laws.EncodedLength.Statement (.stdY q r) :=
  one_encDisp _ _ _ _
theorem Laws.EncodedLength.lds (d : Reg) (k : Word) : Laws.EncodedLength.Statement (.lds d k) := wordLength_encLs _ _
theorem Laws.EncodedLength.ldZInc (d : Reg) : Laws.EncodedLength.Statement (.ldZInc d) := one_encLs _ _ (by decide)
theorem Laws.EncodedLength.ldZDec (d : Reg) : Laws.EncodedLength.Statement (.ldZDec d) := one_encLs _ _ (by decide)
theorem Laws.EncodedLength.lpmZ (d : Reg) : Laws.EncodedLength.Statement (.lpmZ d) := one_encLs _ _ (by decide)
theorem Laws.EncodedLength.lpmZInc (d : Reg) : Laws.EncodedLength.Statement (.lpmZInc d) := one_encLs _ _ (by decide)
theorem Laws.EncodedLength.elpmZ (d : Reg) : Laws.EncodedLength.Statement (.elpmZ d) := one_encLs _ _ (by decide)
theorem Laws.EncodedLength.elpmZInc (d : Reg) : Laws.EncodedLength.Statement (.elpmZInc d) := one_encLs _ _ (by decide)
theorem Laws.EncodedLength.ldYInc (d : Reg) : Laws.EncodedLength.Statement (.ldYInc d) := one_encLs _ _ (by decide)
theorem Laws.EncodedLength.ldYDec (d : Reg) : Laws.EncodedLength.Statement (.ldYDec d) := one_encLs _ _ (by decide)
theorem Laws.EncodedLength.ldX (d : Reg) : Laws.EncodedLength.Statement (.ldX d) := one_encLs _ _ (by decide)
theorem Laws.EncodedLength.ldXInc (d : Reg) : Laws.EncodedLength.Statement (.ldXInc d) := one_encLs _ _ (by decide)
theorem Laws.EncodedLength.ldXDec (d : Reg) : Laws.EncodedLength.Statement (.ldXDec d) := one_encLs _ _ (by decide)
theorem Laws.EncodedLength.pop (d : Reg) : Laws.EncodedLength.Statement (.pop d) := one_encLs _ _ (by decide)
theorem Laws.EncodedLength.sts (k : Word) (r : Reg) : Laws.EncodedLength.Statement (.sts k r) := wordLength_encLs _ _
theorem Laws.EncodedLength.stZInc (r : Reg) : Laws.EncodedLength.Statement (.stZInc r) := one_encLs _ _ (by decide)
theorem Laws.EncodedLength.stZDec (r : Reg) : Laws.EncodedLength.Statement (.stZDec r) := one_encLs _ _ (by decide)
theorem Laws.EncodedLength.xch (d : Reg) : Laws.EncodedLength.Statement (.xch d) := one_encLs _ _ (by decide)
theorem Laws.EncodedLength.las (d : Reg) : Laws.EncodedLength.Statement (.las d) := one_encLs _ _ (by decide)
theorem Laws.EncodedLength.lac (d : Reg) : Laws.EncodedLength.Statement (.lac d) := one_encLs _ _ (by decide)
theorem Laws.EncodedLength.lat (d : Reg) : Laws.EncodedLength.Statement (.lat d) := one_encLs _ _ (by decide)
theorem Laws.EncodedLength.stYInc (r : Reg) : Laws.EncodedLength.Statement (.stYInc r) := one_encLs _ _ (by decide)
theorem Laws.EncodedLength.stYDec (r : Reg) : Laws.EncodedLength.Statement (.stYDec r) := one_encLs _ _ (by decide)
theorem Laws.EncodedLength.stX (r : Reg) : Laws.EncodedLength.Statement (.stX r) := one_encLs _ _ (by decide)
theorem Laws.EncodedLength.stXInc (r : Reg) : Laws.EncodedLength.Statement (.stXInc r) := one_encLs _ _ (by decide)
theorem Laws.EncodedLength.stXDec (r : Reg) : Laws.EncodedLength.Statement (.stXDec r) := one_encLs _ _ (by decide)
theorem Laws.EncodedLength.push (r : Reg) : Laws.EncodedLength.Statement (.push r) := one_encLs _ _ (by decide)
theorem Laws.EncodedLength.com (d : Reg) : Laws.EncodedLength.Statement (.com d) := one_encR _ (by decide)
theorem Laws.EncodedLength.neg (d : Reg) : Laws.EncodedLength.Statement (.neg d) := one_encR _ (by decide)
theorem Laws.EncodedLength.swap (d : Reg) : Laws.EncodedLength.Statement (.swap d) := one_encR _ (by decide)
theorem Laws.EncodedLength.inc (d : Reg) : Laws.EncodedLength.Statement (.inc d) := one_encR _ (by decide)
theorem Laws.EncodedLength.asr (d : Reg) : Laws.EncodedLength.Statement (.asr d) := one_encR _ (by decide)
theorem Laws.EncodedLength.lsr (d : Reg) : Laws.EncodedLength.Statement (.lsr d) := one_encR _ (by decide)
theorem Laws.EncodedLength.ror (d : Reg) : Laws.EncodedLength.Statement (.ror d) := one_encR _ (by decide)
theorem Laws.EncodedLength.bset (s : BitVec 3) : Laws.EncodedLength.Statement (.bset s) := one_encSreg _ _
theorem Laws.EncodedLength.bclr (s : BitVec 3) : Laws.EncodedLength.Statement (.bclr s) := one_encSreg _ _
theorem Laws.EncodedLength.ret : Laws.EncodedLength.Statement (.ret) := rfl
theorem Laws.EncodedLength.reti : Laws.EncodedLength.Statement (.reti) := rfl
theorem Laws.EncodedLength.sleep : Laws.EncodedLength.Statement (.sleep) := rfl
theorem Laws.EncodedLength.brk : Laws.EncodedLength.Statement (.brk) := rfl
theorem Laws.EncodedLength.wdr : Laws.EncodedLength.Statement (.wdr) := rfl
theorem Laws.EncodedLength.lpm : Laws.EncodedLength.Statement (.lpm) := rfl
theorem Laws.EncodedLength.elpm : Laws.EncodedLength.Statement (.elpm) := rfl
theorem Laws.EncodedLength.spm : Laws.EncodedLength.Statement (.spm) := rfl
theorem Laws.EncodedLength.spmZInc : Laws.EncodedLength.Statement (.spmZInc) := rfl
theorem Laws.EncodedLength.ijmp : Laws.EncodedLength.Statement (.ijmp) := rfl
theorem Laws.EncodedLength.eijmp : Laws.EncodedLength.Statement (.eijmp) := rfl
theorem Laws.EncodedLength.icall : Laws.EncodedLength.Statement (.icall) := rfl
theorem Laws.EncodedLength.eicall : Laws.EncodedLength.Statement (.eicall) := rfl
theorem Laws.EncodedLength.dec (d : Reg) : Laws.EncodedLength.Statement (.dec d) := one_encR _ (by decide)
theorem Laws.EncodedLength.des (k : BitVec 4) : Laws.EncodedLength.Statement (.des k) :=
  by unfold Statement; revert k; decide +kernel
theorem Laws.EncodedLength.jmp (k : BitVec 22) : Laws.EncodedLength.Statement (.jmp k) := wordLength_encAbs22 _ _
theorem Laws.EncodedLength.call (k : BitVec 22) : Laws.EncodedLength.Statement (.call k) := wordLength_encAbs22 _ _
theorem Laws.EncodedLength.adiw (d : Reg) (k : BitVec 6) : Laws.EncodedLength.Statement (.adiw d k) := one_encIw _ _ _
theorem Laws.EncodedLength.sbiw (d : Reg) (k : BitVec 6) : Laws.EncodedLength.Statement (.sbiw d k) := one_encIw _ _ _
theorem Laws.EncodedLength.cbi (a : BitVec 5) (b : BitVec 3) : Laws.EncodedLength.Statement (.cbi a b) :=
  one_encIoBit _ _ _
theorem Laws.EncodedLength.sbic (a : BitVec 5) (b : BitVec 3) : Laws.EncodedLength.Statement (.sbic a b) :=
  one_encIoBit _ _ _
theorem Laws.EncodedLength.sbi (a : BitVec 5) (b : BitVec 3) : Laws.EncodedLength.Statement (.sbi a b) :=
  one_encIoBit _ _ _
theorem Laws.EncodedLength.sbis (a : BitVec 5) (b : BitVec 3) : Laws.EncodedLength.Statement (.sbis a b) :=
  one_encIoBit _ _ _
theorem Laws.EncodedLength.mul (d : Reg) (r : Reg) : Laws.EncodedLength.Statement (.mul d r) :=
  one_encRR _ _ (by decide)
theorem Laws.EncodedLength.inp (d : Reg) (a : BitVec 6) : Laws.EncodedLength.Statement (.inp d a) := one_encIo _ _ _
theorem Laws.EncodedLength.out (a : BitVec 6) (r : Reg) : Laws.EncodedLength.Statement (.out a r) := one_encIo _ _ _
theorem Laws.EncodedLength.rjmp (k : BitVec 12) : Laws.EncodedLength.Statement (.rjmp k) := (one_relative _).1
theorem Laws.EncodedLength.rcall (k : BitVec 12) : Laws.EncodedLength.Statement (.rcall k) := (one_relative _).2
theorem Laws.EncodedLength.ldi (d : Reg) (k : Byte) : Laws.EncodedLength.Statement (.ldi d k) :=
  one_encImm8 _ _ (by decide)
theorem Laws.EncodedLength.brbs (s : BitVec 3) (k : BitVec 7) : Laws.EncodedLength.Statement (.brbs s k) :=
  one_encBr _ _ _
theorem Laws.EncodedLength.brbc (s : BitVec 3) (k : BitVec 7) : Laws.EncodedLength.Statement (.brbc s k) :=
  one_encBr _ _ _
theorem Laws.EncodedLength.bld (d : Reg) (b : BitVec 3) : Laws.EncodedLength.Statement (.bld d b) := one_encRBit _ _ _
theorem Laws.EncodedLength.bst (d : Reg) (b : BitVec 3) : Laws.EncodedLength.Statement (.bst d b) := one_encRBit _ _ _
theorem Laws.EncodedLength.sbrc (r : Reg) (b : BitVec 3) : Laws.EncodedLength.Statement (.sbrc r b) := one_encRBit _ _ _
theorem Laws.EncodedLength.sbrs (r : Reg) (b : BitVec 3) : Laws.EncodedLength.Statement (.sbrs r b) := one_encRBit _ _ _

end Sys2Proof
end

