-- ==== Sys2Proof/Tests/Slice0.lean ====
section
/-! SUPPORT. Tests: ill-formed terms refused, a written word of every instruction decoded, single steps with the results
of spec/95_test_vectors.md (the number in a name is its row), and states that meet the hypotheses of the obligations. -/

namespace Sys2Proof.Tests

open Sys2Proof Sys2Proof.Machine

set_option Elab.async false

/-! ## Well-formedness: one ill-formed term for each check -/

theorem test_ill_formed_movw_odd_d : (Instr.movw 25 30).wellFormed = false := by decide
theorem test_ill_formed_movw_odd_r : (Instr.movw 24 31).wellFormed = false := by decide
theorem test_ill_formed_muls_low_d : (Instr.muls 15 16).wellFormed = false := by decide
theorem test_ill_formed_muls_low_r : (Instr.muls 16 15).wellFormed = false := by decide
theorem test_ill_formed_mulsu_low : (Instr.mulsu 15 16).wellFormed = false := by decide
theorem test_ill_formed_mulsu_high : (Instr.mulsu 16 24).wellFormed = false := by decide
theorem test_ill_formed_fmul_high : (Instr.fmul 24 16).wellFormed = false := by decide
theorem test_ill_formed_fmul_low : (Instr.fmul 16 15).wellFormed = false := by decide
theorem test_ill_formed_fmuls_high : (Instr.fmuls 24 16).wellFormed = false := by decide
theorem test_ill_formed_fmuls_low : (Instr.fmuls 16 15).wellFormed = false := by decide
theorem test_ill_formed_fmulsu_high : (Instr.fmulsu 24 16).wellFormed = false := by decide
theorem test_ill_formed_fmulsu_low : (Instr.fmulsu 16 15).wellFormed = false := by decide
theorem test_ill_formed_cpi_low : (Instr.cpi 15 0).wellFormed = false := by decide
theorem test_ill_formed_sbci_low : (Instr.sbci 15 0).wellFormed = false := by decide
theorem test_ill_formed_subi_low : (Instr.subi 15 0).wellFormed = false := by decide
theorem test_ill_formed_ori_low : (Instr.ori 15 0).wellFormed = false := by decide
theorem test_ill_formed_andi_low : (Instr.andi 15 0).wellFormed = false := by decide
theorem test_ill_formed_ldi_low : (Instr.ldi 15 0).wellFormed = false := by decide
theorem test_ill_formed_adiw_low : (Instr.adiw 22 0).wellFormed = false := by decide
theorem test_ill_formed_adiw_odd : (Instr.adiw 25 0).wellFormed = false := by decide
theorem test_ill_formed_sbiw_low : (Instr.sbiw 22 0).wellFormed = false := by decide
theorem test_ill_formed_sbiw_odd : (Instr.sbiw 31 0).wellFormed = false := by decide

/-! ## Decoding: words written out from the patterns of R135, with the operands of spec/95 section 5 and 3 -/

theorem test_decode_control :
    decodeWords 0x0000 0 = some .nop ∧ decodeWords 0x9598 0 = some .brk ∧ decodeWords 0x9588 0 = some .sleep ∧
    decodeWords 0x95A8 0 = some .wdr ∧ decodeWords 0x9508 0 = some .ret ∧ decodeWords 0x9518 0 = some .reti ∧
    decodeWords 0x9409 0 = some .ijmp ∧ decodeWords 0x9419 0 = some .eijmp ∧ decodeWords 0x9509 0 = some .icall ∧
    decodeWords 0x9519 0 = some .eicall ∧ decodeWords 0x95C8 0 = some .lpm ∧ decodeWords 0x95D8 0 = some .elpm ∧
    decodeWords 0x95E8 0 = some .spm ∧ decodeWords 0x95F8 0 = some .spmZInc ∧
    decodeWords 0x94FB 0 = some (.des 15) := by
  decide +kernel

theorem test_decode_two_registers :
    decodeWords 0x0F1E 0 = some (.add 17 30) ∧ decodeWords 0x1C34 0 = some (.adc 3 4) ∧
    decodeWords 0x1B01 0 = some (.sub 16 17) ∧ decodeWords 0x0831 0 = some (.sbc 3 1) ∧
    decodeWords 0x2023 0 = some (.and 2 3) ∧ decodeWords 0x2823 0 = some (.or 2 3) ∧
    decodeWords 0x2701 0 = some (.eor 16 17) ∧ decodeWords 0x1701 0 = some (.cp 16 17) ∧
    decodeWords 0x0713 0 = some (.cpc 17 19) ∧ decodeWords 0x1301 0 = some (.cpse 16 17) ∧
    decodeWords 0x2D0F 0 = some (.mov 16 15) ∧ decodeWords 0x9E0F 0 = some (.mul 0 31) ∧
    decodeWords 0x01F0 0 = some (.movw 30 0) ∧ decodeWords 0x02F0 0 = some (.muls 31 16) ∧
    decodeWords 0x0370 0 = some (.mulsu 23 16) ∧ decodeWords 0x030F 0 = some (.fmul 16 23) ∧
    decodeWords 0x0392 0 = some (.fmuls 17 18) ∧ decodeWords 0x03F8 0 = some (.fmulsu 23 16) := by
  decide +kernel

theorem test_decode_immediate :
    decodeWords 0x3840 0 = some (.cpi 20 0x80) ∧ decodeWords 0x4F1F 0 = some (.sbci 17 0xFF) ∧
    decodeWords 0x50FF 0 = some (.subi 31 0x0F) ∧ decodeWords 0x68F0 0 = some (.ori 31 0x80) ∧
    decodeWords 0x700F 0 = some (.andi 16 0x0F) ∧ decodeWords 0xEA15 0 = some (.ldi 17 0xA5) ∧
    decodeWords 0x96DF 0 = some (.adiw 26 63) ∧ decodeWords 0x97B1 0 = some (.sbiw 30 33) := by
  decide +kernel

theorem test_decode_one_register :
    decodeWords 0x9500 0 = some (.com 16) ∧ decodeWords 0x9501 0 = some (.neg 16) ∧
    decodeWords 0x9502 0 = some (.swap 16) ∧ decodeWords 0x95F3 0 = some (.inc 31) ∧
    decodeWords 0x9505 0 = some (.asr 16) ∧ decodeWords 0x9506 0 = some (.lsr 16) ∧
    decodeWords 0x9507 0 = some (.ror 16) ∧ decodeWords 0x952A 0 = some (.dec 18) ∧
    decodeWords 0x93DF 0 = some (.push 29) ∧ decodeWords 0x91DF 0 = some (.pop 29) := by
  decide +kernel

theorem test_decode_bits :
    decodeWords 0x9468 0 = some (.bset 6) ∧ decodeWords 0x94F8 0 = some (.bclr 7) ∧
    decodeWords 0x9AFF 0 = some (.sbi 0x1F 7) ∧ decodeWords 0x9828 0 = some (.cbi 5 0) ∧
    decodeWords 0x9982 0 = some (.sbic 0x10 2) ∧ decodeWords 0x9B82 0 = some (.sbis 0x10 2) ∧
    decodeWords 0xFB07 0 = some (.bst 16 7) ∧ decodeWords 0xF914 0 = some (.bld 17 4) ∧
    decodeWords 0xFC10 0 = some (.sbrc 1 0) ∧ decodeWords 0xFF07 0 = some (.sbrs 16 7) ∧
    decodeWords 0xB70F 0 = some (.inp 16 0x3F) ∧ decodeWords 0xBC25 0 = some (.out 0x25 2) := by
  decide +kernel

theorem test_decode_loads :
    decodeWords 0x9020 0x08FF = some (.lds 2 0x08FF) ∧ decodeWords 0x91BC 0 = some (.ldX 27) ∧
    decodeWords 0x900D 0 = some (.ldXInc 0) ∧ decodeWords 0x900E 0 = some (.ldXDec 0) ∧
    decodeWords 0x9059 0 = some (.ldYInc 5) ∧ decodeWords 0x905A 0 = some (.ldYDec 5) ∧
    decodeWords 0x9051 0 = some (.ldZInc 5) ∧ decodeWords 0x9052 0 = some (.ldZDec 5) ∧
    decodeWords 0xA50A 0 = some (.lddY 16 42) ∧ decodeWords 0x8101 0 = some (.lddZ 16 1) ∧
    decodeWords 0x9104 0 = some (.lpmZ 16) ∧ decodeWords 0x9105 0 = some (.lpmZInc 16) ∧
    decodeWords 0x9106 0 = some (.elpmZ 16) ∧ decodeWords 0x9107 0 = some (.elpmZInc 16) := by
  decide +kernel

theorem test_decode_stores :
    decodeWords 0x93F0 0x0060 = some (.sts 0x0060 31) ∧ decodeWords 0x921C 0 = some (.stX 1) ∧
    decodeWords 0x921D 0 = some (.stXInc 1) ∧ decodeWords 0x921E 0 = some (.stXDec 1) ∧
    decodeWords 0x9219 0 = some (.stYInc 1) ∧ decodeWords 0x931A 0 = some (.stYDec 17) ∧
    decodeWords 0x9211 0 = some (.stZInc 1) ∧ decodeWords 0x9212 0 = some (.stZDec 1) ∧
    decodeWords 0x821A 0 = some (.stdY 2 1) ∧ decodeWords 0xA3F0 0 = some (.stdZ 32 31) ∧
    decodeWords 0x9304 0 = some (.xch 16) ∧ decodeWords 0x9305 0 = some (.las 16) ∧
    decodeWords 0x9306 0 = some (.lac 16) ∧ decodeWords 0x9307 0 = some (.lat 16) := by
  decide +kernel

theorem test_decode_jumps :
    decodeWords 0xC7FF 0 = some (.rjmp 2047) ∧ decodeWords 0xDFFF 0 = some (.rcall (-1)) ∧
    decodeWords 0x95FD 0x1234 = some (.jmp 0x3F1234) ∧ decodeWords 0x941E 0x0456 = some (.call 0x020456) ∧
    decodeWords 0xF1F8 0 = some (.brbs 0 63) ∧ decodeWords 0xF7F1 0 = some (.brbc 1 (-2)) := by
  decide +kernel

theorem test_decode_bytes : decode [0x0E, 0x94, 0x56, 0x04, 0x19] = .instr (.call 0x0456) [0x19] := by decide +kernel

theorem test_decode_truncated : decode [0x0E, 0x94, 0x56] = .truncated := by decide +kernel

/-- Rows W1, W10, W15, W22, W24 of spec/95 section 4.3. -/
theorem test_decode_reserved :
    [0x0001, 0x95F4, 0x95B8, 0x95FB, 0xF80F].all (fun w => (decodeWords w 0).isNone) = true := by decide +kernel

theorem test_table_word :
    decodeTableWord 32 0x123495FD = some (.jmp 0x3F1234) ∧ decodeTableWord 16 0x940E = some (.call 0) := by decide +kernel

/-! ## Single steps -/

/-- A state to start one step from: what differs from the reset state of `cfg`. -/
structure Start where
  cfg : Config := Config.reference
  prog : List (Nat × Nat) := []
  pc : Nat := 0
  regs : List (Nat × Nat) := []
  data : List (Nat × Nat) := []
  sreg : Byte := 0
  sp : Nat := cfg.spReset
  holdoff : Bool := false
  run : RunState := .running
  pending : List Nat := []

/-- A byte put at a data address, as a store would. -/
def poke (s : State) (c : Nat × Nat) : State :=
  match memWrite c.1 (BitVec.ofNat 8 c.2) s with
  | .next t => t
  | .fault _ => s
  | .refused _ => s

/-- The state of a `Start`. -/
def start (x : Start) : State :=
  let s := State.resetOf x.cfg (x.prog.foldl (fun m c => storeWord c.1 (BitVec.ofNat 16 c.2) m) [])
  let s := x.regs.foldl (fun s c => s.setReg (BitVec.ofNat 5 c.1) (BitVec.ofNat 8 c.2)) s
  let s := x.data.foldl poke s
  { s with pc := BitVec.ofNat 22 x.pc, sp := BitVec.ofNat 16 x.sp, sreg := x.sreg, irqHoldoff := x.holdoff, run := x.run,
           irqPending := x.pending }

/-- One thing to look at in a state, with the value it must have. -/
inductive Seen where
  | reg (r : Reg) (v : Byte)
  | data (a : Nat) (v : Byte)
  | sreg (v : Byte)
  | pc (n : Nat)
  | sp (n : Nat)
  | holdoff (b : Bool)
  | run (r : RunState)

/-- The state has the value. -/
def Seen.holds (t : State) : Seen → Bool
  | .reg r v => t.reg r == v
  | .data a v => t.dataByte a == some v
  | .sreg v => t.sreg == v
  | .pc n => t.pc.toNat == n
  | .sp n => t.sp.toNat == n
  | .holdoff b => t.irqHoldoff == b
  | .run r => t.run == r

/-- One step of `s` completes and its state has every value listed. -/
def shows (s : State) (l : List Seen) : Bool :=
  match step s with
  | .next t => l.all (Seen.holds t)
  | .fault _ => false
  | .refused _ => false

/-- One step of `s` stops with the fault `f`. -/
def stops (s : State) (f : Fault) : Bool :=
  match step s with
  | .next _ => false
  | .fault g => g == f
  | .refused _ => false

/-- The 22-bit configuration of spec/95 section 3.4. -/
def bigConfig : Config :=
  { Config.reference with core := .avr6, pcBits := 22, flashWords := 131072, hasRampZ := true, hasEind := true,
                          ramEnd := 0x21FF, spReset := 0x21FF }

/-- The XMEGA_RMW configuration of spec/95 section 3.8. -/
def rmwConfig : Config :=
  { Config.reference with core := .xmegaRmw, memoryMap := .xmega, ramStart := 0x2000, ramEnd := 0x3FFF,
                          spReset := 0x3FFF }

theorem test_add_V1 :
    shows (start {
      prog := [(0, 0xF01)], regs := [(0x10, 0x7F), (0x11, 1)] }) [.reg 16 0x80, .sreg 0x2C, .pc 1] = true
      := by decide +kernel
theorem test_add_V4 :
    shows (start {
      prog := [(0, 0xF44)], regs := [(0x14, 0xC1)] }) [.reg 20 0x82, .sreg 0x15, .pc 1] = true := by decide +kernel
theorem test_adc_V7 :
    shows (start {
      prog := [(0, 0x1C34)], regs := [(3, 0x7F), (4, 0)], sreg := 1 }) [.reg 3 0x80, .sreg 0x2C, .pc 1] = true
      := by decide +kernel
theorem test_adc_V8 :
    shows (start {
      prog := [(0, 0x1F88)], regs := [(0x18, 0x80)], sreg := 1 }) [.reg 24 1, .sreg 0x19, .pc 1] = true
      := by decide +kernel
theorem test_adiw_V10 :
    shows (start {
      prog := [(0, 0x96DF)], regs := [(0x1A, 0xC1), (0x1B, 0x7F)] }) [.reg 26 0, .reg 27 0x80, .sreg 0xC,
      .pc 1] = true := by decide +kernel
theorem test_adiw_V11 :
    shows (start {
      prog := [(0, 0x9630)], regs := [(0x1E, 0), (0x1F, 0)], sreg := 0x21 }) [.sreg 0x22, .pc 1] = true
      := by decide +kernel
theorem test_sub_V12 :
    shows (start {
      prog := [(0, 0x1B01)], regs := [(0x10, 0), (0x11, 1)] }) [.reg 16 0xFF, .sreg 0x35, .pc 1] = true
      := by decide +kernel
theorem test_sub_V14 :
    shows (start {
      prog := [(0, 0x1B01)], regs := [(0x10, 0x80), (0x11, 1)] }) [.reg 16 0x7F, .sreg 0x38, .pc 1] = true
      := by decide +kernel
theorem test_subi_V15 :
    shows (start {
      prog := [(0, 0x5100)], regs := [(0x10, 0x80)] }) [.reg 16 0x70, .sreg 0x18, .pc 1] = true := by decide +kernel
theorem test_subi_V16 :
    shows (start {
      prog := [(0, 0x5FFF)], regs := [(0x1F, 0)] }) [.reg 31 1, .sreg 0x21, .pc 1] = true := by decide +kernel
theorem test_sbc_V17 :
    shows (start {
      prog := [(0, 0x831)], regs := [(1, 0), (3, 0)], sreg := 3 }) [.reg 3 0xFF, .sreg 0x35, .pc 1] = true
      := by decide +kernel
theorem test_sbc_V18 :
    shows (start {
      prog := [(0, 0x831)], regs := [(1, 0), (3, 1)], sreg := 3 }) [.reg 3 0, .sreg 2, .pc 1] = true
      := by decide +kernel
theorem test_sbci_V21 :
    shows (start {
      prog := [(0, 0x4010)], regs := [(0x11, 0x10)], sreg := 3 }) [.reg 17 0xF, .sreg 0x20, .pc 1] = true
      := by decide +kernel
theorem test_sbci_V22 :
    shows (start {
      prog := [(0, 0x4F1F)], regs := [(0x11, 0)], sreg := 3 }) [.sreg 0x23, .pc 1] = true := by decide +kernel
theorem test_sbiw_V23 :
    shows (start {
      prog := [(0, 0x9701)], regs := [(0x18, 0), (0x19, 0)] }) [.reg 24 0xFF, .reg 25 0xFF, .sreg 0x15, .pc 1] = true
      := by decide +kernel
theorem test_sbiw_V24 :
    shows (start {
      prog := [(0, 0x9731)], regs := [(0x1E, 0), (0x1F, 0x80)] }) [.reg 30 0xFF, .reg 31 0x7F, .sreg 0x18,
      .pc 1] = true := by decide +kernel
theorem test_inc_V26 :
    shows (start {
      prog := [(0, 0x9403)], regs := [(0, 0x7F)], sreg := 1 }) [.reg 0 0x80, .sreg 0xD, .pc 1] = true
      := by decide +kernel
theorem test_inc_V27 :
    shows (start {
      prog := [(0, 0x9403)], regs := [(0, 0xFF)] }) [.reg 0 0, .sreg 2, .pc 1] = true := by decide +kernel
theorem test_dec_V28 :
    shows (start {
      prog := [(0, 0x952A)], regs := [(0x12, 0x80)], sreg := 1 }) [.reg 18 0x7F, .sreg 0x19, .pc 1] = true
      := by decide +kernel
theorem test_dec_V30 :
    shows (start {
      prog := [(0, 0x952A)], regs := [(0x12, 0)] }) [.reg 18 0xFF, .sreg 0x14, .pc 1] = true := by decide +kernel
theorem test_and_V31 :
    shows (start {
      prog := [(0, 0x2023)], regs := [(2, 0xF0), (3, 0x3C)], sreg := 0x29 }) [.reg 2 0x30, .sreg 0x21, .pc 1] = true
      := by decide +kernel
theorem test_and_V33 :
    shows (start { prog := [(0, 0x2022)], regs := [(2, 0x80)] }) [.sreg 0x14, .pc 1] = true := by decide +kernel
theorem test_andi_V34 :
    shows (start {
      prog := [(0, 0x700F)], regs := [(0x10, 0xA5)] }) [.reg 16 5, .sreg 0, .pc 1] = true := by decide +kernel
theorem test_or_V35 :
    shows (start {
      prog := [(0, 0x2823)], regs := [(2, 0x80), (3, 1)], sreg := 8 }) [.reg 2 0x81, .sreg 0x14, .pc 1] = true
      := by decide +kernel
theorem test_ori_V36 :
    shows (start {
      prog := [(0, 0x68F0)], regs := [(0x1F, 1)] }) [.reg 31 0x81, .sreg 0x14, .pc 1] = true := by decide +kernel
theorem test_eor_V37 :
    shows (start {
      prog := [(0, 0x2477)], regs := [(7, 0x5A)], sreg := 0x15 }) [.reg 7 0, .sreg 3, .pc 1] = true
      := by decide +kernel
theorem test_eor_V38 :
    shows (start {
      prog := [(0, 0x2701)], regs := [(0x10, 0xFF), (0x11, 0xF)] }) [.reg 16 0xF0, .sreg 0x14, .pc 1] = true
      := by decide +kernel
theorem test_com_V39 :
    shows (start {
      prog := [(0, 0x9500)], regs := [(0x10, 0x55)] }) [.reg 16 0xAA, .sreg 0x15, .pc 1] = true := by decide +kernel
theorem test_com_V40 :
    shows (start {
      prog := [(0, 0x9500)], regs := [(0x10, 0xFF)] }) [.reg 16 0, .sreg 3, .pc 1] = true := by decide +kernel
theorem test_neg_V41 :
    shows (start {
      prog := [(0, 0x9501)], regs := [(0x10, 1)] }) [.reg 16 0xFF, .sreg 0x35, .pc 1] = true := by decide +kernel
theorem test_neg_V42 :
    shows (start { prog := [(0, 0x9501)], regs := [(0x10, 0x80)] }) [.sreg 0xD, .pc 1] = true := by decide +kernel
theorem test_cp_V45 :
    shows (start {
      prog := [(0, 0x1701)], regs := [(0x10, 0x80), (0x11, 1)] }) [.sreg 0x38, .pc 1] = true := by decide +kernel
theorem test_cp_V47 :
    shows (start {
      prog := [(0, 0x1701)], regs := [(0x10, 1), (0x11, 0xFF)] }) [.sreg 0x21, .pc 1] = true := by decide +kernel
theorem test_cpc_V49 :
    shows (start {
      prog := [(0, 0x713)], regs := [(0x11, 0x12), (0x13, 0x12)], sreg := 3 }) [.sreg 0x35, .pc 1] = true
      := by decide +kernel
theorem test_cpc_V50 :
    shows (start {
      prog := [(0, 0x713)], regs := [(0x11, 0x12), (0x13, 0x12)] }) [.sreg 0, .pc 1] = true := by decide +kernel
theorem test_cpi_V51 :
    shows (start { prog := [(0, 0x3100)], regs := [(0x10, 0xF)] }) [.sreg 0x15, .pc 1] = true := by decide +kernel
theorem test_cpi_V52 :
    shows (start { prog := [(0, 0x3840)], regs := [(0x14, 0x7F)] }) [.sreg 0xD, .pc 1] = true := by decide +kernel
theorem test_swap_V53 :
    shows (start {
      prog := [(0, 0x9502)], regs := [(0x10, 0xA5)], sreg := 3 }) [.reg 16 0x5A, .sreg 3, .pc 1] = true
      := by decide +kernel
theorem test_lsr_V54 :
    shows (start {
      prog := [(0, 0x9506)], regs := [(0x10, 1)] }) [.reg 16 0, .sreg 0x1B, .pc 1] = true := by decide +kernel
theorem test_lsr_V55 :
    shows (start {
      prog := [(0, 0x9506)], regs := [(0x10, 0x80)], sreg := 1 }) [.reg 16 0x40, .sreg 0, .pc 1] = true
      := by decide +kernel
theorem test_ror_V56 :
    shows (start {
      prog := [(0, 0x9507)], regs := [(0x10, 1)], sreg := 1 }) [.reg 16 0x80, .sreg 0x15, .pc 1] = true
      := by decide +kernel
theorem test_ror_V57 :
    shows (start {
      prog := [(0, 0x9507)], regs := [(0x10, 2)] }) [.reg 16 1, .sreg 0, .pc 1] = true := by decide +kernel
theorem test_asr_V58 :
    shows (start {
      prog := [(0, 0x9505)], regs := [(0x10, 0x81)] }) [.reg 16 0xC0, .sreg 0x15, .pc 1] = true := by decide +kernel
theorem test_asr_V60 :
    shows (start {
      prog := [(0, 0x9505)], regs := [(0x10, 1)] }) [.reg 16 0, .sreg 0x1B, .pc 1] = true := by decide +kernel
theorem test_mul_V62 :
    shows (start {
      prog := [(0, 0x9C23)], regs := [(2, 0), (3, 0x55)], sreg := 5 }) [.reg 0 0, .reg 1 0, .sreg 6, .pc 1] = true
      := by decide +kernel
theorem test_mul_V63 :
    shows (start {
      prog := [(0, 0x9C01)], regs := [(0, 0x10), (1, 0x10)] }) [.reg 0 0, .reg 1 1, .sreg 0, .pc 1] = true
      := by decide +kernel
theorem test_muls_V64 :
    shows (start {
      prog := [(0, 0x201)], regs := [(0x10, 0xFF), (0x11, 2)] }) [.reg 0 0xFE, .reg 1 0xFF, .sreg 1, .pc 1] = true
      := by decide +kernel
theorem test_muls_V66 :
    shows (start {
      prog := [(0, 0x2F0)], regs := [(0x10, 0x7F), (0x1F, 0x7F)] }) [.reg 0 1, .reg 1 0x3F, .sreg 0, .pc 1] = true
      := by decide +kernel
theorem test_mulsu_V67 :
    shows (start {
      prog := [(0, 0x301)], regs := [(0x10, 0xFF), (0x11, 0xFF)] }) [.reg 0 1, .reg 1 0xFF, .sreg 1, .pc 1] = true
      := by decide +kernel
theorem test_mulsu_V68 :
    shows (start {
      prog := [(0, 0x301)], regs := [(0x10, 0x7F), (0x11, 0xFF)] }) [.reg 0 0x81, .reg 1 0x7E, .sreg 0, .pc 1] = true
      := by decide +kernel
theorem test_fmul_V70 :
    shows (start {
      prog := [(0, 0x309)], regs := [(0x10, 0xFF), (0x11, 0xFF)] }) [.reg 0 2, .reg 1 0xFC, .sreg 1, .pc 1] = true
      := by decide +kernel
theorem test_fmul_V72 :
    shows (start {
      prog := [(0, 0x309)], regs := [(0x10, 0x80), (0x11, 0)], sreg := 1 }) [.reg 0 0, .reg 1 0, .sreg 2,
      .pc 1] = true := by decide +kernel
theorem test_fmuls_V73 :
    shows (start {
      prog := [(0, 0x381)], regs := [(0x10, 0x80), (0x11, 0x80)] }) [.reg 0 0, .reg 1 0x80, .sreg 0, .pc 1] = true
      := by decide +kernel
theorem test_fmuls_V74 :
    shows (start {
      prog := [(0, 0x381)], regs := [(0x10, 0xC0), (0x11, 0x40)] }) [.reg 0 0, .reg 1 0xE0, .sreg 1, .pc 1] = true
      := by decide +kernel
theorem test_fmulsu_V76 :
    shows (start {
      prog := [(0, 0x389)], regs := [(0x10, 0x80), (0x11, 0xFF)] }) [.reg 0 0, .reg 1 1, .sreg 1, .pc 1] = true
      := by decide +kernel
theorem test_fmulsu_V78 :
    shows (start {
      prog := [(0, 0x3F8)], regs := [(0x10, 1), (0x17, 0xFF)] }) [.reg 0 0xFE, .reg 1 0xFF, .sreg 1, .pc 1] = true
      := by decide +kernel
theorem test_bset_V88 :
    shows (start { prog := [(0, 0x9478)] }) [.sreg 0x80, .pc 1, .holdoff true] = true := by decide +kernel
theorem test_bclr_V94 :
    shows (start { prog := [(0, 0x94D8)], sreg := 0xFF }) [.sreg 0xDF, .pc 1] = true := by decide +kernel
theorem test_bclr_V96 :
    shows (start { prog := [(0, 0x94F8)], sreg := 0xFF }) [.sreg 0x7F, .pc 1] = true := by decide +kernel
theorem test_bset_V97 :
    shows (start { prog := [(0, 0x9478)], sreg := 0x80 }) [.sreg 0x80, .pc 1] = true := by decide +kernel
theorem test_sbi_V98 :
    shows (start {
      prog := [(0, 0x9A2B)], data := [(0x25, 1)] }) [.data 0x25 9, .sreg 0, .pc 1] = true := by decide +kernel
theorem test_cbi_V99 :
    shows (start {
      prog := [(0, 0x9828)], data := [(0x25, 9)] }) [.data 0x25 8, .sreg 0, .pc 1] = true := by decide +kernel
theorem test_sbi_V100 :
    shows (start {
      prog := [(0, 0x9AFF)], data := [(0x3F, 0)] }) [.data 0x3F 0x80, .sreg 0, .pc 1] = true := by decide +kernel
theorem test_cbi_V101 :
    shows (start { prog := [(0, 0x98FF)], data := [(0x3F, 0)] }) [.sreg 0, .pc 1] = true := by decide +kernel
theorem test_bst_V103 :
    shows (start { prog := [(0, 0xFB07)], regs := [(0x10, 0x80)] }) [.sreg 0x40, .pc 1] = true := by decide +kernel
theorem test_bst_V104 :
    shows (start {
      prog := [(0, 0xFB00)], regs := [(0x10, 0xFE)], sreg := 0x41 }) [.sreg 1, .pc 1] = true := by decide +kernel
theorem test_bld_V105 :
    shows (start {
      prog := [(0, 0xF910)], regs := [(0x11, 0)], sreg := 0x40 }) [.reg 17 1, .sreg 0x40, .pc 1] = true
      := by decide +kernel
theorem test_bld_V106 :
    shows (start {
      prog := [(0, 0xF914)], regs := [(0x11, 0xFF)] }) [.reg 17 0xEF, .sreg 0, .pc 1] = true := by decide +kernel
theorem test_nop_V107 :
    shows (start { prog := [(0, 0)], sreg := 0xFF }) [.sreg 0xFF, .pc 1] = true := by decide +kernel
theorem test_brk_V108 :
    shows (start { prog := [(5, 0x9598)], pc := 5 }) [.sreg 0, .pc 5, .run .stopped] = true := by decide +kernel
theorem test_sleep_V109 :
    shows (start { prog := [(0, 0x9588)] }) [.sreg 0, .pc 1, .run .sleeping] = true := by decide +kernel
theorem test_wdr_V110 :
    shows (start { prog := [(0, 0x95A8)], sreg := 0x80 }) [.sreg 0x80, .pc 1] = true := by decide +kernel
theorem test_mov_V111 :
    shows (start {
      prog := [(0, 0x2E1F)], regs := [(0x1F, 0xAB)], sreg := 0xFF }) [.reg 1 0xAB, .sreg 0xFF, .pc 1] = true
      := by decide +kernel
theorem test_movw_V112 :
    shows (start {
      prog := [(0, 0x1CF)], regs := [(0x1E, 0x34), (0x1F, 0x12)] }) [.reg 24 0x34, .reg 25 0x12, .sreg 0,
      .pc 1] = true := by decide +kernel
theorem test_movw_V113 :
    shows (start {
      prog := [(0, 0x108)], regs := [(0x10, 0xCD), (0x11, 0xAB)] }) [.reg 0 0xCD, .reg 1 0xAB, .sreg 0, .pc 1] = true
      := by decide +kernel
theorem test_ldi_V114 :
    shows (start { prog := [(0, 0xEA05)] }) [.reg 16 0xA5, .sreg 0, .pc 1] = true := by decide +kernel
theorem test_inp_V116 :
    shows (start {
      prog := [(0, 0xB70F)], sreg := 0x83 }) [.reg 16 0x83, .sreg 0x83, .pc 1] = true := by decide +kernel
theorem test_inp_V118 : shows (start { prog := [(0, 0xB61E)] }) [.reg 1 8, .sreg 0, .pc 1] = true := by decide +kernel
theorem test_lds_V120 :
    shows (start {
      prog := [(0, 0x9050), (1, 0x30)], data := [(0x30, 0x77)] }) [.reg 5 0x77, .sreg 0, .pc 2] = true
      := by decide +kernel
theorem test_out_V122 :
    shows (start {
      prog := [(0, 0xBF0F)], regs := [(0x10, 0x81)] }) [.sreg 0x81, .pc 1, .holdoff true] = true := by decide +kernel
theorem test_sts_V125 :
    shows (start {
      prog := [(0, 0x9300), (1, 0x5F)], regs := [(0x10, 0x81)] }) [.sreg 0x81, .pc 2, .holdoff true] = true
      := by decide +kernel
theorem test_out_V126 :
    shows (start {
      prog := [(0, 0xBF0D)], regs := [(0x10, 0x34)] }) [.sp 0x834, .sreg 0, .pc 1] = true := by decide +kernel
theorem test_push_V129 :
    shows (start {
      prog := [(0, 0x930F)], regs := [(0x10, 0x5A)] }) [.data 0x8FF 0x5A, .sp 0x8FE, .sreg 0, .pc 1] = true
      := by decide +kernel
theorem test_push_V132 :
    shows (start {
      prog := [(0, 0x920F)], regs := [(0, 0x11)], sp := 0x5E }) [.sp 0x5D, .sreg 0, .pc 1] = true
      := by decide +kernel
theorem test_pop_V134 : stops (start { prog := [(0, 0x911F)] }) (.dataOutOfRange 0x0900) = true := by decide +kernel
theorem test_pop_V135 :
    shows (start {
      prog := [(0, 0x911F)], regs := [(0, 0x3C)], sp := 0xFFFF }) [.reg 17 0x3C, .sp 0, .sreg 0, .pc 1] = true
      := by decide +kernel
theorem test_lds_V136 :
    shows (start {
      prog := [(0, 0x9020), (1, 0x100)], data := [(0x100, 0x42)] }) [.reg 2 0x42, .sreg 0, .pc 2] = true
      := by decide +kernel
theorem test_sts_V142 :
    shows (start {
      prog := [(0, 0x9300), (1, 0x123)], regs := [(0x10, 0xEE)] }) [.data 0x123 0xEE, .sreg 0, .pc 2] = true
      := by decide +kernel
theorem test_ldX_V146 :
    shows (start {
      prog := [(0, 0x900C)], regs := [(0x1A, 0), (0x1B, 2)], data := [(0x200, 0x55)] }) [.reg 0 0x55, .sreg 0,
      .pc 1] = true := by decide +kernel
theorem test_ldXInc_V147 :
    shows (start {
      prog := [(0, 0x900D)], regs := [(0x1A, 0xFF), (0x1B, 1)], data := [(0x1FF, 0x66)] }) [.reg 0 0x66, .reg 26 0,
      .reg 27 2, .sreg 0, .pc 1] = true := by decide +kernel
theorem test_ldXDec_V148 :
    shows (start {
      prog := [(0, 0x900E)], regs := [(0x1A, 0), (0x1B, 2)], data := [(0x1FF, 0x66)] }) [.reg 0 0x66, .reg 26 0xFF,
      .reg 27 1, .sreg 0, .pc 1] = true := by decide +kernel
theorem test_ldYInc_V149 :
    shows (start {
      prog := [(0, 0x9059)], regs := [(0x1C, 0), (0x1D, 1)], data := [(0x100, 0x77)] }) [.reg 5 0x77, .reg 28 1,
      .sreg 0, .pc 1] = true := by decide +kernel
theorem test_ldYDec_V150 :
    shows (start {
      prog := [(0, 0x905A)], regs := [(0x1C, 1), (0x1D, 1)], data := [(0x100, 0x77)] }) [.reg 5 0x77, .reg 28 0,
      .sreg 0, .pc 1] = true := by decide +kernel
theorem test_ldZInc_V151 :
    shows (start {
      prog := [(0, 0x9051)], regs := [(0x1E, 0), (0x1F, 1)], data := [(0x100, 0x77)] }) [.reg 5 0x77, .reg 30 1,
      .sreg 0, .pc 1] = true := by decide +kernel
theorem test_ldZDec_V152 :
    stops (start {
      prog := [(0, 0x9052)], regs := [(0x1E, 0), (0x1F, 0)] }) (.dataOutOfRange 0xFFFF) = true := by decide +kernel
theorem test_ldXDec_V154 :
    shows (start {
      prog := [(0, 0x905E)], regs := [(0x1A, 0x1B), (0x1B, 0)] }) [.reg 5 0x1B, .reg 26 0x1A, .sreg 0, .pc 1] = true
      := by decide +kernel
theorem test_ldX_V156 :
    shows (start {
      prog := [(0, 0x91BC)], regs := [(0x1A, 0), (0x1B, 1)], data := [(0x100, 0x77)] }) [.reg 27 0x77, .sreg 0,
      .pc 1] = true := by decide +kernel
theorem test_ldXInc_V157 :
    stops (start {
      prog := [(0, 0x91AD)], regs := [(0x1A, 0), (0x1B, 1)], data := [(0x100, 0x77)] })
      (.undefinedOperandCombination 0x91AD) = true := by decide +kernel
theorem test_lddY_V158 :
    shows (start {
      prog := [(0, 0xAD0F)], regs := [(0x1C, 0), (0x1D, 1)], data := [(0x13F, 0x21)] }) [.reg 16 0x21, .sreg 0,
      .pc 1] = true := by decide +kernel
theorem test_lddY_V159 :
    shows (start {
      prog := [(0, 0xA50A)], regs := [(0x1C, 0), (0x1D, 1)], data := [(0x12A, 0x21)] }) [.reg 16 0x21, .sreg 0,
      .pc 1] = true := by decide +kernel
theorem test_lddZ_V161 :
    shows (start {
      prog := [(0, 0x8101)], regs := [(0, 0x9A), (0x1E, 0xFF), (0x1F, 0xFF)] }) [.reg 16 0x9A, .sreg 0, .pc 1] = true
      := by decide +kernel
theorem test_lddZ_V162 :
    shows (start {
      prog := [(0, 0x81E2)], regs := [(0x1E, 0), (0x1F, 2)], data := [(0x202, 0x88)] }) [.reg 30 0x88, .sreg 0,
      .pc 1] = true := by decide +kernel
theorem test_stX_V163 :
    shows (start {
      prog := [(0, 0x921C)], regs := [(1, 0x12), (0x1A, 0), (0x1B, 3)] }) [.data 0x300 0x12, .sreg 0, .pc 1] = true
      := by decide +kernel
theorem test_stXInc_V164 :
    shows (start {
      prog := [(0, 0x921D)], regs := [(1, 0x12), (0x1A, 0xFF), (0x1B, 3)] }) [.reg 26 0, .reg 27 4, .data 0x3FF 0x12,
      .sreg 0, .pc 1] = true := by decide +kernel
theorem test_stXDec_V165 :
    shows (start {
      prog := [(0, 0x921E)], regs := [(1, 0x12), (0x1A, 0), (0x1B, 3)] }) [.reg 26 0xFF, .reg 27 2, .data 0x2FF 0x12,
      .sreg 0, .pc 1] = true := by decide +kernel
theorem test_stYInc_V166 :
    shows (start {
      prog := [(0, 0x9219)], regs := [(1, 0x12), (0x1C, 0), (0x1D, 3)] }) [.reg 28 1, .data 0x300 0x12, .sreg 0,
      .pc 1] = true := by decide +kernel
theorem test_stYDec_V167 :
    shows (start {
      prog := [(0, 0x921A)], regs := [(1, 0x12), (0x1C, 0), (0x1D, 3)] }) [.reg 28 0xFF, .reg 29 2, .data 0x2FF 0x12,
      .sreg 0, .pc 1] = true := by decide +kernel
theorem test_stZInc_V168 :
    shows (start {
      prog := [(0, 0x9211)], regs := [(1, 0x12), (0x1E, 0), (0x1F, 3)] }) [.reg 30 1, .data 0x300 0x12, .sreg 0,
      .pc 1] = true := by decide +kernel
theorem test_stZDec_V169 :
    shows (start {
      prog := [(0, 0x9212)], regs := [(1, 0x12), (0x1E, 0), (0x1F, 3)] }) [.reg 30 0xFF, .reg 31 2, .data 0x2FF 0x12,
      .sreg 0, .pc 1] = true := by decide +kernel
theorem test_stZDec_V170 :
    stops (start {
      prog := [(0, 0x93E2)], regs := [(0x1E, 0), (0x1F, 3)] }) (.undefinedOperandCombination 0x93E2) = true
      := by decide +kernel
theorem test_stXInc_V171 :
    shows (start {
      prog := [(0, 0x925D)], regs := [(5, 0x80), (0x1A, 0x1A), (0x1B, 0)] }) [.reg 26 0x1B, .sreg 0, .pc 1] = true
      := by decide +kernel
theorem test_stX_V172 :
    shows (start {
      prog := [(0, 0x93AC)], regs := [(0x1A, 0), (0x1B, 3)] }) [.data 0x300 0, .sreg 0, .pc 1] = true
      := by decide +kernel
theorem test_stdY_V173 :
    shows (start {
      prog := [(0, 0x821A)], regs := [(1, 0x12), (0x1C, 0), (0x1D, 3)] }) [.data 0x302 0x12, .sreg 0, .pc 1] = true
      := by decide +kernel
theorem test_stdZ_V174 :
    shows (start {
      prog := [(0, 0xAFF7)], regs := [(0x1E, 0xC0), (0x1F, 1)] }) [.data 0x1FF 1, .sreg 0, .pc 1] = true
      := by decide +kernel
theorem test_stdY_V176 :
    stops (start {
      prog := [(0, 0x8229)], regs := [(2, 0x44), (0x1C, 0xFF), (0x1D, 8)] }) (.dataOutOfRange 0x0900) = true
      := by decide +kernel
theorem test_lpm_V178 :
    shows (start {
      prog := [(0, 0x95C8), (0x100, 0xBBAA)], regs := [(0x1E, 1), (0x1F, 2)] }) [.reg 0 0xBB, .sreg 0, .pc 1] = true
      := by decide +kernel
theorem test_lpmZInc_V182 :
    shows (start {
      prog := [(0, 0x9105), (0xFF, 0x1234)], regs := [(0x1E, 0xFF), (0x1F, 1)] }) [.reg 16 0x12, .reg 30 0,
      .reg 31 2, .sreg 0, .pc 1] = true := by decide +kernel
theorem test_lpmZInc_V183 :
    stops (start {
      prog := [(0, 0x9105)], regs := [(0x1E, 0xFF), (0x1F, 0xFF)] }) (.progReadOutOfRange 0xFFFF) = true
      := by decide +kernel
theorem test_lpmZ_V184 :
    shows (start {
      prog := [(0, 0x9104), (0x3FFF, 0xC3D2)], regs := [(0x1E, 0xFF), (0x1F, 0x7F)] }) [.reg 16 0xC3, .sreg 0,
      .pc 1] = true := by decide +kernel
theorem test_lpmZ_V185 :
    stops (start {
      prog := [(0, 0x9104)], regs := [(0x1E, 0), (0x1F, 0x80)] }) (.progReadOutOfRange 0x8000) = true
      := by decide +kernel
theorem test_spm_V193 :
    stops (start {
      prog := [(0, 0x95E8)], regs := [(0, 0), (1, 0), (0x1E, 0), (0x1F, 0)] }) (.spmNotModelled) = true
      := by decide +kernel
theorem test_elpm_V195 :
    shows (start {
      prog := [(0, 0x95D8), (0x8000, 0x2211), (0xFFFF, 0x4433)], regs := [(0x1E, 1), (0x1F, 0)], data := [(0x5B, 1)],
      cfg := bigConfig }) [.reg 0 0x22, .sreg 0, .pc 1] = true := by decide +kernel
theorem test_elpmZ_V196 :
    shows (start {
      prog := [(0, 0x9106), (0x8000, 0x2211), (0xFFFF, 0x4433)], regs := [(0x1E, 0), (0x1F, 0)], data := [(0x5B, 1)],
      cfg := bigConfig }) [.reg 16 0x11, .sreg 0, .pc 1] = true := by decide +kernel
theorem test_elpmZInc_V197 :
    shows (start {
      prog := [(0, 0x9107), (0x8000, 0x2211), (0xFFFF, 0x4433)], regs := [(0x1E, 0xFF), (0x1F, 0xFF)],
      data := [(0x5B, 1)], cfg := bigConfig }) [.reg 16 0x44, .reg 30 0, .reg 31 0, .data 0x5B 2, .sreg 0,
      .pc 1] = true := by decide +kernel
theorem test_elpmZ_V199 :
    stops (start {
      prog := [(0, 0x9106), (0x8000, 0x2211), (0xFFFF, 0x4433)], regs := [(0x1E, 0), (0x1F, 0)], data := [(0x5B, 4)],
      cfg := bigConfig }) (.progReadOutOfRange 0x40000) = true := by decide +kernel
theorem test_elpmZInc_V200 :
    stops (start {
      prog := [(0, 0x91E7), (0x8000, 0x2211), (0xFFFF, 0x4433)], regs := [(0x1E, 0), (0x1F, 0)], data := [(0x5B, 1)],
      cfg := bigConfig }) (.undefinedOperandCombination 0x91E7) = true := by decide +kernel
theorem test_rjmp_V205 :
    shows (start { prog := [(0x900, 0xC800)], pc := 0x900 }) [.sreg 0, .pc 0x101] = true := by decide +kernel
theorem test_rjmp_V206 : shows (start { prog := [(0, 0xCFFE)] }) [.sreg 0, .pc 0xFFFF] = true := by decide +kernel
theorem test_ijmp_V207 :
    shows (start {
      prog := [(0, 0x9409)], regs := [(0x1E, 0x34), (0x1F, 0x12)] }) [.sreg 0, .pc 0x1234] = true
      := by decide +kernel
theorem test_jmp_V211 :
    shows (start { prog := [(0x20, 0x940D), (0x21, 0)], pc := 0x20 }) [.sreg 0, .pc 0] = true := by decide +kernel
theorem test_jmp_V217 :
    shows (start {
      prog := [(0, 0x940D), (1, 0xF234)], cfg := bigConfig }) [.sreg 0, .pc 0x1F234] = true := by decide +kernel
theorem test_eijmp_V218 :
    shows (start {
      prog := [(0, 0x9419)], regs := [(0x1E, 0x34), (0x1F, 0x12)], data := [(0x5C, 1)], cfg := bigConfig }) [.sreg 0,
      .pc 0x11234] = true := by decide +kernel
theorem test_ijmp_V219 :
    shows (start {
      prog := [(0, 0x9409)], regs := [(0x1E, 0x34), (0x1F, 0x12)], data := [(0x5C, 1)], cfg := bigConfig }) [.sreg 0,
      .pc 0x1234] = true := by decide +kernel
theorem test_cpse_V221 :
    shows (start {
      prog := [(0, 0x1301), (1, 0)], regs := [(0x10, 5), (0x11, 6)] }) [.sreg 0, .pc 1] = true := by decide +kernel
theorem test_cpse_V222 :
    shows (start {
      prog := [(0, 0x1301), (1, 0x940C), (2, 0)], regs := [(0x10, 5), (0x11, 5)] }) [.sreg 0, .pc 3] = true
      := by decide +kernel
theorem test_sbrc_V228 :
    shows (start {
      prog := [(0, 0xFD00), (1, 0)], regs := [(0x10, 0xFE)] }) [.sreg 0, .pc 2] = true := by decide +kernel
theorem test_sbrc_V229 :
    shows (start { prog := [(0, 0xFD00), (1, 0)], regs := [(0x10, 1)] }) [.sreg 0, .pc 1] = true := by decide +kernel
theorem test_sbrs_V230 :
    shows (start {
      prog := [(0, 0xFF07), (1, 0)], regs := [(0x10, 0x80)] }) [.sreg 0, .pc 2] = true := by decide +kernel
theorem test_sbrs_V231 :
    shows (start {
      prog := [(0, 0xFF07), (1, 0)], regs := [(0x10, 0x7F)] }) [.sreg 0, .pc 1] = true := by decide +kernel
theorem test_sbic_V232 :
    shows (start {
      prog := [(0, 0x9982), (1, 0)], data := [(0x30, 0xFB)] }) [.sreg 0, .pc 2] = true := by decide +kernel
theorem test_sbic_V233 :
    shows (start { prog := [(0, 0x9982), (1, 0)], data := [(0x30, 4)] }) [.sreg 0, .pc 1] = true := by decide +kernel
theorem test_sbis_V234 :
    shows (start {
      prog := [(0, 0x9B82), (1, 0x940E), (2, 0x100)], data := [(0x30, 4)] }) [.sreg 0, .pc 3] = true
      := by decide +kernel
theorem test_brbs_V236 :
    shows (start { prog := [(0x20, 0xF019)], pc := 0x20, sreg := 2 }) [.sreg 2, .pc 0x24] = true := by decide +kernel
theorem test_brbc_V238 :
    shows (start { prog := [(0x20, 0xF7F1)], pc := 0x20 }) [.sreg 0, .pc 0x1F] = true := by decide +kernel
theorem test_brbc_V240 :
    shows (start { prog := [(0x100, 0xF600)], pc := 0x100 }) [.sreg 0, .pc 0xC1] = true := by decide +kernel
theorem test_brbs_V243 :
    shows (start {
      prog := [(0x100, 0xF00C)], pc := 0x100, sreg := 0x14 }) [.sreg 0x14, .pc 0x102] = true := by decide +kernel
theorem test_rcall_V246 :
    shows (start {
      prog := [(0x123, 0xD005)], pc := 0x123 }) [.data 0x8FE 1, .data 0x8FF 0x24, .sp 0x8FD, .sreg 0,
      .pc 0x129] = true := by decide +kernel
theorem test_icall_V249 :
    shows (start {
      prog := [(0x200, 0x9509)], pc := 0x200, regs := [(0x1E, 0), (0x1F, 0x10)] }) [.data 0x8FE 2, .data 0x8FF 1,
      .sp 0x8FD, .sreg 0, .pc 0x1000] = true := by decide +kernel
theorem test_call_V250 :
    shows (start {
      prog := [(0x300, 0x940E), (0x301, 0x456)], pc := 0x300, sreg := 0x80 }) [.data 0x8FE 3, .data 0x8FF 2,
      .sp 0x8FD, .sreg 0x80, .pc 0x456] = true := by decide +kernel
theorem test_ret_V252 :
    shows (start {
      prog := [(0, 0x9508)], data := [(0x8FE, 3), (0x8FF, 2)], sp := 0x8FD }) [.sp 0x8FF, .sreg 0, .pc 0x302] = true
      := by decide +kernel
theorem test_reti_V253 :
    shows (start {
      prog := [(0, 0x9518)], data := [(0x8FE, 3), (0x8FF, 2)], sp := 0x8FD }) [.sp 0x8FF, .sreg 0x80, .pc 0x302,
      .holdoff true] = true := by decide +kernel
theorem test_reti_V254 :
    shows (start {
      prog := [(0, 0x9518)], data := [(0x8FE, 3), (0x8FF, 2)], sreg := 0x81, sp := 0x8FD }) [.sp 0x8FF, .sreg 0x81,
      .pc 0x302, .holdoff true] = true := by decide +kernel
theorem test_call_V259 :
    shows (start {
      prog := [(0x1F000, 0x940F), (0x1F001, 0x2345)], pc := 0x1F000, cfg := bigConfig }) [.data 0x21FD 1,
      .data 0x21FE 0xF0, .data 0x21FF 2, .sp 0x21FC, .sreg 0, .pc 0x12345] = true := by decide +kernel
theorem test_rcall_V260 :
    shows (start {
      prog := [(0x1FFFF, 0xD001)], pc := 0x1FFFF, cfg := bigConfig }) [.data 0x21FD 2, .data 0x21FE 0,
      .data 0x21FF 0, .sp 0x21FC, .sreg 0, .pc 0x20001] = true := by decide +kernel
theorem test_eicall_V262 :
    shows (start {
      prog := [(0x200, 0x9519)], pc := 0x200, regs := [(0x1E, 0), (0x1F, 0x10)], data := [(0x5C, 1)],
      cfg := bigConfig }) [.data 0x21FD 0, .data 0x21FE 2, .data 0x21FF 1, .sp 0x21FC, .sreg 0, .pc 0x11000] = true
      := by decide +kernel
theorem test_ret_V263 :
    shows (start {
      prog := [(0, 0x9508)], data := [(0x21FD, 1), (0x21FE, 0xF0), (0x21FF, 2)], sp := 0x21FC, cfg := bigConfig })
      [.sp 0x21FF, .sreg 0, .pc 0x1F002] = true := by decide +kernel
theorem test_xch_V265 :
    shows (start {
      prog := [(0, 0x9304)], regs := [(0x10, 0xF), (0x1E, 0), (0x1F, 0x20)], data := [(0x2000, 0xA5)], sreg := 0xFF,
      cfg := rmwConfig }) [.reg 16 0xA5, .data 0x2000 0xF, .sreg 0xFF, .pc 1] = true := by decide +kernel
theorem test_las_V266 :
    shows (start {
      prog := [(0, 0x9305)], regs := [(0x10, 0xF), (0x1E, 0), (0x1F, 0x20)], data := [(0x2000, 0xA5)],
      cfg := rmwConfig }) [.reg 16 0xA5, .data 0x2000 0xAF, .sreg 0, .pc 1] = true := by decide +kernel
theorem test_lac_V267 :
    shows (start {
      prog := [(0, 0x9306)], regs := [(0x10, 0xF), (0x1E, 0), (0x1F, 0x20)], data := [(0x2000, 0xA5)],
      cfg := rmwConfig }) [.reg 16 0xA5, .data 0x2000 0xA0, .sreg 0, .pc 1] = true := by decide +kernel
theorem test_lat_V268 :
    shows (start {
      prog := [(0, 0x9307)], regs := [(0x10, 0xF), (0x1E, 0), (0x1F, 0x20)], data := [(0x2000, 0xA5)],
      cfg := rmwConfig }) [.reg 16 0xA5, .data 0x2000 0xAA, .sreg 0, .pc 1] = true := by decide +kernel
theorem test_xch_V269 :
    shows (start {
      prog := [(0, 0x93E4)], regs := [(0x1E, 0), (0x1F, 0x20)], data := [(0x2000, 0xA5)], cfg := rmwConfig })
      [.reg 30 0xA5, .data 0x2000 0, .sreg 0, .pc 1] = true := by decide +kernel
theorem test_lat_V271 :
    stops (start {
      prog := [(0, 0x9307)], regs := [(0x10, 0xF), (0x1E, 0), (0x1F, 2)], data := [(0x200, 0xA5)] })
      (.notImplemented "LAT") = true := by decide +kernel
theorem test_des_V272 : stops (start { prog := [(0, 0x940B)] }) (.notImplemented "DES") = true := by decide +kernel

/-- The example of R259. -/
theorem test_spmZInc_R259 :
    stops (start { prog := [(0, 0x95F8)] }) (.notImplemented "SPM Z+") = true := by decide +kernel

/-- STS 0x0123, R0, its second word in the upper bits. -/
theorem test_withFetchWord :
    shows (State.reset.withFetchWord 32 0x01239200) [.pc 2, .sreg 0, .data 0x0123 0] = true := by decide +kernel

/-! Steps that execute no instruction, and interrupts (spec/95 section 3.9). -/

theorem test_step_V277 :
    shows (start {
      prog := [(0x150, 0x9503)], pc := 0x150, regs := [(0x10, 1)], sreg := 0x80, pending := [3, 7, 12] })
      [.data 0x8FE 1, .data 0x8FF 0x50, .sp 0x8FD, .sreg 0, .pc 6] = true := by decide +kernel
theorem test_step_V276 :
    shows (start {
      prog := [(0x150, 0x9503)], pc := 0x150, regs := [(0x10, 1)], sreg := 0x80, holdoff := true, pending := [3] })
      [.reg 16 2, .sreg 0x80, .pc 0x151, .holdoff false] = true := by decide +kernel
theorem test_step_V282 :
    shows (start {
      prog := [(0x151, 0)], pc := 0x151, sreg := 0x80, run := .sleeping, pending := [3] }) [.data 0x8FE 1,
      .data 0x8FF 0x51, .sp 0x8FD, .sreg 0, .pc 6, .run .running] = true := by decide +kernel
theorem test_step_V284 :
    shows (start {
      prog := [(0x151, 0)], pc := 0x151, sreg := 0x80, run := .sleeping }) [.sreg 0x80, .pc 0x151,
      .run .sleeping] = true := by decide +kernel
theorem test_step_V285 :
    shows (start {
      prog := [(0x150, 0x9588)], pc := 0x150, sreg := 0x80, holdoff := true, pending := [3] }) [.sreg 0x80,
      .pc 0x151, .holdoff false, .run .sleeping] = true := by decide +kernel
theorem test_step_V286 :
    shows (start {
      prog := [(0x150, 0x9598)], pc := 0x150, sreg := 0x80, run := .stopped, pending := [3] }) [.sreg 0x80,
      .pc 0x150, .run .stopped] = true := by decide +kernel
theorem test_step_V287 :
    stops (start {
      prog := [(0x150, 0x9503)], pc := 0x150, regs := [(0x10, 1)], sreg := 0x80, sp := 0x900, pending := [3] })
      (.dataOutOfRange 0x0900) = true := by decide +kernel
theorem test_step_V288 :
    shows (start {
      prog := [(0x150, 0xFFFF)], pc := 0x150, sreg := 0x80, pending := [3] }) [.data 0x8FE 1, .data 0x8FF 0x50,
      .sp 0x8FD, .sreg 0, .pc 6] = true := by decide +kernel
theorem test_step_V213 :
    stops (start { prog := [], pc := 0xFFFF }) (.fetchOutOfRange 0xFFFF) = true := by decide +kernel
theorem test_step_V215 :
    stops (start { prog := [(0x3FFF, 0x940C)], pc := 0x3FFF }) (.fetchOutOfRange 0x4000) = true := by decide +kernel

/-! ## States and operands that meet the hypotheses of the obligations, at the edges of their ranges -/

/-- An outcome is a next state with the property `p`. -/
def nextWith (p : State → Bool) : Result State → Bool
  | .next t => p t
  | .fault _ => false
  | .refused _ => false

theorem exists_next {x : Result State} {p : State → Bool} (h : nextWith p x = true) :
    ∃ t, x = .next t ∧ p t = true := by
  cases x with
  | next t => exact ⟨t, rfl, h⟩
  | fault e => cases h
  | refused e => cases h

/-- A small AVR2 part with an 8-bit SP. -/
def smallConfig : Config :=
  { Config.reference with core := .avr2, flashWords := 1024, spBits := 8, hasExtIo := false, ramStart := 0x60,
                          ramEnd := 0xDF, spReset := 0xDF }

/-- An XMEGA part with every segment register, DES, and a platform's SPM. -/
def xmegaConfig : Config :=
  { Config.reference with core := .xmegaRmw, pcBits := 22, flashWords := 131072, memoryMap := .xmega,
                          ramStart := 0x2000, ramEnd := 0x1FFFF, hasRampX := true, hasRampY := true,
                          hasRampZ := true, hasRampD := true, hasEind := true, rampzForData := true,
                          spReset := 0x3FFF, hasDes := true, spmEffect := .platform }

/-- An AVR1 part: registers and I/O registers, no SRAM, no SP. -/
def avr1Config : Config :=
  { Config.reference with core := .avr1, flashWords := 512, spBits := 8, memoryMap := .avr1, hasExtIo := false,
                          ramStart := 0x60, ramEnd := 0x60 }

/-- X, Y, Z = 0x08FF, 0x08C0, 0x08FE; I, T and C set. -/
def atRamEnd : State :=
  start { regs := [(26, 0xFF), (27, 8), (28, 0xC0), (29, 8), (30, 0xFE), (31, 8)], sreg := 0xC1 }

/-- X, Y, Z one beyond the SRAM. -/
def beyondRam : State := start { regs := [(26, 0), (27, 9), (28, 0), (29, 9), (30, 0), (31, 9)] }

/-- The XMEGA part with X, Y, Z = 0xFFFF and every RAMP register 0. -/
def xmegaEdge : State :=
  start { cfg := xmegaConfig, regs := [(26, 0xFF), (27, 0xFF), (28, 0xFF), (29, 0xFF), (30, 0xFF), (31, 0xFF)] }

/-- The XMEGA part with RAMPX:X = RAMPD:0xFFFF = 0x1FFFF, RAMPY:Y = 0xFFFFFF, RAMPZ:Z = 0x00FFFF. -/
def xmegaRamped : State :=
  start { cfg := xmegaConfig, regs := [(26, 0xFF), (27, 0xFF), (28, 0xFF), (29, 0xFF), (30, 0xFF), (31, 0xFF)],
          data := [(0x39, 1), (0x3A, 0xFF), (0x38, 1)] }

/-- The AVR6 part, whose RAMPZ = 3 takes no part in data addressing, with Z = 0x0100. -/
def bigRamped : State := start { cfg := bigConfig, regs := [(31, 1)], data := [(0x5B, 3)] }

theorem test_configurations :
    Config.reference.wf = true ∧ bigConfig.wf = true ∧ rmwConfig.wf = true ∧ smallConfig.wf = true ∧
    xmegaConfig.wf = true ∧ avr1Config.wf = true := by decide +kernel

/-- R8: what the configuration check refuses, one configuration for each item, and X3 with R267. -/
theorem test_configurations_refused :
    [{ smallConfig with spBits := 16 }, { rmwConfig with spBits := 8, ramEnd := 0x2000 }, { avr1Config with spBits := 16 },
      { Config.reference with core := .avr4 }, { bigConfig with hasRampZ := false },
      { bigConfig with core := .avr5 }, { bigConfig with core := .avr3, flashWords := 65536 },
      { bigConfig with hasEind := false }, { xmegaConfig with hasRampX := false },
      { xmegaConfig with rampzForData := false }].all (fun c => !c.wf) = true := by decide +kernel

/-- The invariant, as a Bool. -/
def meetsInvariant (s : State) : Bool := decide (Invariant s)

theorem invariant_of_meets {s : State} (h : meetsInvariant s = true) : Invariant s := of_decide_eq_true h

theorem test_invariant_witnesses :
    meetsInvariant atRamEnd = true ∧ meetsInvariant beyondRam = true ∧ meetsInvariant xmegaEdge = true ∧
    meetsInvariant (start { cfg := bigConfig }) = true ∧
    meetsInvariant (start { cfg := smallConfig }) = true := by decide +kernel

theorem witness_OpcodeRowsDisjoint : ∃ p ∈ opcodeMap, p.selects 0x0F01 = true := by decide +kernel

theorem witness_DecodeOfEncode :
    (Instr.movw 30 0).wellFormed = true ∧ (Instr.adiw 30 63).wellFormed = true ∧
    (Instr.fmulsu 23 16).wellFormed = true ∧
    (Instr.sts 0xFFFF 31).wellFormed = true := by decide

theorem witness_EncodeOfDecode :
    decodeWords 0x0F01 0 = some (.add 16 17) ∧ decodeWords 0x95FF 0xFFFF = some (.call 0x3FFFFF) := by decide +kernel

theorem witness_ReservedWordsRefused :
    [0x9404, 0x95F4, 0x9528, 0x9538, 0x9548, 0x9578, 0x95B8, 0xF808, 0xFFFF, 0x0001, 0x00FF, 0x9003, 0x93F3,
      0x9008, 0x93F8,
      0x900B, 0x93FB, 0x9429, 0x95F9, 0x950B, 0x95FB].all isReserved = true := by decide +kernel

theorem witness_OtherWordsDecode : isReserved 0x0000 = false ∧ isReserved 0xFFF7 = false := by decide +kernel

theorem witness_LengthByFirstWord :
    decodeWords 0x9020 0x0100 = some (.lds 2 0x0100) ∧ wordLength 0x9020 = 2 ∧ decodeWords 0x9004 0 = some (.lpmZ 0) ∧
    wordLength 0x9004 = 1 := by decide +kernel

theorem witness_StepRunsDecodedInstruction :
    (let s := start { prog := [(0x3FFF, 0x0F01)], pc := 0x3FFF }
     s.run = .running ∧ interruptDue s = none ∧ progWord s.pc.toNat s = .next 0x0F01 ∧ wordLength 0x0F01 = 1 ∧
       decodeWords 0x0F01 0 = some (.add 16 17)) ∧
    (let s := start { prog := [(0x3FFE, 0x940E), (0x3FFF, 0x0456)], pc := 0x3FFE }
     s.run = .running ∧ interruptDue s = none ∧ progWord s.pc.toNat s = .next 0x940E ∧
       progWord (s.nextPc 1) s = .next 0x0456 ∧ wordLength 0x940E = 2 ∧
       decodeWords 0x940E 0x0456 = some (.call 0x0456)) := by
  refine ⟨⟨rfl, ?_, rfl, ?_, ?_⟩, ⟨rfl, ?_, rfl, rfl, ?_, ?_⟩⟩ <;> decide +kernel

theorem witness_StepFetchFaults :
    (let s := start { pc := 0x4000 }
     s.run = .running ∧ interruptDue s = none ∧ s.cfg.flashWords ≤ s.pc.toNat) ∧
    (let s := start { prog := [(0, 0xFFFF)] }
     s.run = .running ∧ interruptDue s = none ∧ progWord s.pc.toNat s = .next 0xFFFF ∧ isReserved 0xFFFF = true) ∧
    (let s := start { prog := [(0x3FFF, 0x940E)], pc := 0x3FFF }
     s.run = .running ∧ interruptDue s = none ∧ progWord s.pc.toNat s = .next 0x940E ∧ wordLength 0x940E = 2 ∧
       s.cfg.flashWords ≤ s.nextPc 1) := by
  refine ⟨⟨rfl, ?_, ?_⟩, ⟨rfl, ?_, rfl, ?_⟩, ⟨rfl, ?_, rfl, ?_, ?_⟩⟩ <;> decide +kernel

theorem witness_StoppedAndSleepingMachines :
    (start { run := .stopped }).run = .stopped ∧
    (start { run := .sleeping }).run = .sleeping ∧ interruptDue (start { run := .sleeping }) = none ∧
    ∃ t, step (start { run := .sleeping, sreg := 0x80, pending := [25] }) = .next t ∧ (t.run != .sleeping) = true :=
  ⟨rfl, rfl, by decide +kernel, exists_next (by decide +kernel)⟩

theorem witness_LowestPendingInterruptTaken :
    (let s := start { sreg := 0x80, pending := [25, 1] }
     s.run ≠ .stopped ∧ s.flag .I = true ∧ s.irqHoldoff = false ∧ 1 ∈ pendingVectors s ∧
     ∀ m ∈ pendingVectors s, 1 ≤ m) ∧
    (let s := start { pending := [25] }
     s.flag .I = false ∧ s.run = .running) ∧
    (let s := start { sreg := 0x80, pending := [25], holdoff := true }
     s.irqHoldoff = true ∧ s.run = .running) ∧
    (let s := start { sreg := 0x80, pending := [0, 26] }
     pendingVectors s = [] ∧ s.run = .running) := by decide +kernel

theorem witness_InterruptEntry :
    (let s := start { sreg := 0x80, pending := [25], sp := 0x0101 }
     s.cfg.core ≠ .avr1 ∧ s.cfg.irq = .reference ∧ s.cfg.vectorAddr = .reference ∧ stackInSram s) ∧
    stackInSram (start { cfg := bigConfig, sp := 0x0102 }) ∧ stackInSram (start { cfg := xmegaConfig }) := by
  decide +kernel

theorem witness_InterruptThenReti :
    (let s := start { cfg := bigConfig, sreg := 0x80, pc := 0x1F000, sp := 0x0102 }
     meetsInvariant s = true ∧ s.cfg.widthsOk = true ∧ s.cfg.isXmega = false ∧ s.cfg.irq = .reference ∧
     stackInSram s) ∧
    ∃ t, takeInterrupt 25 (start { cfg := bigConfig, sreg := 0x80, pc := 0x1F000, sp := 0x0102 }) = .next t ∧
      decide (t.pc = 50) = true :=
  ⟨by decide +kernel, exists_next (by decide +kernel)⟩

theorem witness_HoldoffArmedBySettingI :
    Config.reference.widthsOk = true ∧ Config.reference.isXmega = false ∧ State.reset.irqHoldoff = false ∧
    State.reset.flag .I = false ∧
    ∃ t, exec (.bset 7) State.reset = .next t ∧ (t.flag .I && t.irqHoldoff) = true :=
  ⟨by decide, by decide, rfl, by decide, exists_next (by decide +kernel)⟩

theorem witness_MissingInstructionFaults :
    implements Config.reference (.xch 16) = false ∧ implements Config.reference (.add 0 31) = true ∧
    (let c := { Config.reference with core := .avrTiny }
     implements c (.add 15 16) = false ∧ implements c (.add 16 31) = true ∧ lacksReg c 15 ∧ ¬ lacksReg c 16) := by decide

theorem witness_UpdatedPointerOperandFaults :
    [Ptr.x, .y, .z].all (fun p => p.regs.all fun r =>
      [loadIncOf p r, loadDecOf p r, storeIncOf p r, storeDecOf p r].all (implements Config.reference)) = true ∧
    Ptr.z.regs.all (fun r => [Instr.lpmZInc r, .elpmZInc r].all (implements bigConfig)) = true := by decide +kernel

theorem witness_ResetMeetsInvariant :
    Memory.wf Memory.flashByte [(0, 0x0C), (0x7FFF, 0x94)] ∧
    ∀ x ∈ [((0 : Nat), (0x0C : Byte)), (0x7FFF, 0x94)], x.1 < 2 * Config.reference.flashWords := by decide

theorem witness_StepKeepsInvariant :
    meetsInvariant (start { prog := [(0x3FFF, 0x1FFF)], pc := 0x3FFF }) = true ∧
    ∃ t, step (start { prog := [(0x3FFF, 0x1FFF)], pc := 0x3FFF }) = .next t ∧ decide (t.pc = 0x4000) = true :=
  ⟨by decide +kernel, exists_next (by decide +kernel)⟩

theorem witness_StepKeepsConfiguration :
    interruptDue (start { prog := [(0, 0)], pending := [3] }) = none ∧
    (∃ t, step (start { prog := [(0, 0)], pending := [3] }) = .next t ∧ decide (t.irqPending = [3]) = true) :=
  ⟨by decide +kernel, exists_next (by decide +kernel)⟩

theorem witness_ProgramMemoryFixedWithoutSpm :
    (start { prog := [(0, 0x930F)] }).cfg.spmEffect = .reference ∧
    ∃ t, step (start { prog := [(0, 0x930F)] }) = .next t ∧ decide (t.pc = 1) = true :=
  ⟨rfl, exists_next (by decide +kernel)⟩

theorem witness_SramReadAfterWrite :
    sramOk State.reset ∧ isSram Config.reference 0x0100 = true ∧
    isSram Config.reference 0x08FF = true := by decide +kernel

theorem witness_RegistersAndIoInDataSpace :
    State.reset.cfg.memoryMap = .atmega ∧ avr1Config.memoryMap = .avr1 ∧ rmwConfig.memoryMap = .xmega ∧
    { Config.reference with memoryMap := .avrTiny }.memoryMap = .avrTiny :=
  ⟨rfl, rfl, rfl, rfl⟩

/-- R82: the edges of the XMEGA map, from the I/O registers to the first byte of SRAM. -/
theorem test_xmega_map :
    place rmwConfig 0x3F = .io 0x3F ∧ place rmwConfig 0x40 = .device ∧ place rmwConfig 0x1FFF = .device ∧
    place rmwConfig 0x2000 = .sram ∧ place rmwConfig 0x4000 = .nothing := by decide

theorem witness_CpuRegistersAsIo :
    (Config.reference.core ≠ .avr1 ∧ Config.reference.spBits = 16) ∧
    (let s := start { cfg := smallConfig }
     s.cfg.core ≠ .avr1 ∧ s.cfg.spBits = 8 ∧ spInRange s) ∧
    (xmegaConfig.hasEind = true ∧ xmegaConfig.hasRampZ = true ∧ xmegaConfig.hasRampY = true ∧
    xmegaConfig.hasRampX = true ∧
      xmegaConfig.hasRampD = true) ∧ avr1Config.core = .avr1 ∧
    (Config.reference.hasEind = false ∧ Config.reference.hasRampZ = false ∧ Config.reference.hasRampY = false ∧
      Config.reference.hasRampX = false ∧ Config.reference.hasRampD = false) ∧ (0x37 : BitVec 6).toNat < 0x38 := by
  decide +kernel

theorem witness_UnmappedAddressFaults :
    (State.reset.cfg.memoryMap = .atmega ∧ Config.reference.hasExtIo = true ∧ 0x100 ≤ 0x0900 ∧
      Config.reference.ramEnd < 0x0900) ∧
    (let c := { Config.reference with hasExtIo := false }
     c.memoryMap = .atmega ∧ c.hasExtIo = false ∧ 0x60 < c.ramStart) := by decide +kernel

theorem witness_ReturnAddressLayout :
    (let s := start { sp := 0x0101 }
     meetsInvariant s = true ∧ s.cfg.widthsOk = true ∧ stackInSram s) ∧
    (let s := start { cfg := bigConfig, sp := 0x0102 }
     meetsInvariant s = true ∧ s.cfg.widthsOk = true ∧ stackInSram s ∧ s.cfg.pcBits = 22) := by decide +kernel

theorem witness_PopPcAfterPushPc :
    (let s := start { cfg := bigConfig, sp := 0x0102 }
     meetsInvariant s = true ∧ s.cfg.widthsOk = true ∧ stackInSram s ∧ (0x3FFFFF#22).toNat < 2 ^ s.cfg.pcBits) ∧
    ∃ t, pushPc 0x3FFFFF (start { cfg := bigConfig, sp := 0x0102 }) = .next t ∧ decide (t.sp = 0x00FF) = true :=
  ⟨by decide +kernel, exists_next (by decide +kernel)⟩

theorem witness_ProgramBytesOfWord :
    0 >>> 1 < State.reset.cfg.flashWords ∧ 0x7FFF >>> 1 < State.reset.cfg.flashWords ∧
    State.reset.cfg.flashWords ≤ 0x8000 >>> 1 := by decide

theorem witness_ArithmeticFrame :
    family (.adiw 24 63) = .arithmetic ∧
    ∃ t, exec (.adiw 24 63) State.reset = .next t ∧ decide (t.reg 24 = 63) = true :=
  ⟨rfl, exists_next (by decide +kernel)⟩

theorem witness_BitAndXmegaFrame :
    family (.sbi 5 3) = .bit ∧ family (.lat 16) = .xmega ∧
    (∃ t, exec (.sbi 5 3) State.reset = .next t ∧ decide (t.ioAt 0x25 = 8) = true) ∧
    ∃ t, exec (.lat 16) (start { cfg := rmwConfig, regs := [(16, 0x0F), (31, 0x20)] }) = .next t ∧
      decide (t.sramAt 0x2000 = 0x0F) = true :=
  ⟨rfl, rfl, exists_next (by decide +kernel), exists_next (by decide +kernel)⟩

theorem witness_TransferFrame :
    family (.stXInc 5) = .transfer ∧ family (.lpmZInc 16) = .programMemory ∧
    (∃ t, exec (.stXInc 5) atRamEnd = .next t ∧ decide (t.reg 26 = 0) = true) ∧
    ∃ t, exec (.lpmZInc 16) atRamEnd = .next t ∧ decide (t.reg 30 = 0xFF) = true :=
  ⟨rfl, rfl, exists_next (by decide +kernel), exists_next (by decide +kernel)⟩

theorem witness_ControlFrame :
    family (.rjmp 0) = .jump ∧ family (.brbs 0 0) = .branch ∧ family (.rcall 5) = .call ∧
    (∃ t, exec (.rjmp 0) State.reset = .next t ∧ decide (t.pc = 1) = true) ∧
    (∃ t, exec (.brbs 0 0) State.reset = .next t ∧ decide (t.pc = 1) = true) ∧
    ∃ t, exec (.rcall 5) State.reset = .next t ∧ decide (t.pc = 6) = true :=
  ⟨rfl, rfl, rfl, exists_next (by decide +kernel), exists_next (by decide +kernel), exists_next (by decide +kernel)⟩

/-- The hypothesis of the result statements, `implements`,
  in the reference configuration: at the lowest and the highest
register of each class. -/
theorem witness_AdditionResult :
    [Instr.add 0 31, .add 31 31, .adc 0 0, .adc 31 0].all (implements Config.reference) = true := by decide

theorem witness_SubtractionResult :
    [Instr.sub 0 31, .subi 16 0xFF, .subi 31 0, .sbc 31 31, .sbci 16 0, .sbci 31 0xFF, .neg 0, .neg 31].all
      (implements Config.reference) = true := by decide

theorem witness_ComparisonResult :
    [Instr.cp 0 31, .cpc 31 31, .cpi 16 0xFF, .cpi 31 0].all (implements Config.reference) = true := by decide

theorem witness_WordArithmeticResult :
    [Instr.adiw 24 0, .adiw 30 63, .sbiw 24 63, .sbiw 30 0].all (implements Config.reference) = true := by decide

theorem witness_IncrementResult :
    [Instr.inc 0, .inc 31, .dec 0, .dec 31].all (implements Config.reference) = true := by decide

theorem witness_LogicResult :
    [Instr.and 0 31, .andi 16 0, .or 31 0, .ori 31 0xFF, .eor 7 7,
      .com 0].all (implements Config.reference) = true := by
  decide

theorem witness_ShiftResult :
    [Instr.lsr 0, .ror 31, .asr 0, .swap 31].all (implements Config.reference) = true := by decide

theorem witness_MultiplicationResult :
    [Instr.mul 0 31, .muls 16 31, .mulsu 16 23, .fmul 23 16, .fmuls 16 16, .fmulsu 23 23].all
      (implements Config.reference) = true := by decide

theorem witness_FlagBitResult : [Instr.bst 0 7, .bld 31 0].all (implements Config.reference) = true := by decide

theorem witness_IoBitResult : State.reset.cfg.ioDevice = .reference ∧ ioOk State.reset := by decide

theorem witness_SystemResult :
    State.reset.cfg.ioDevice = .reference ∧ State.reset.cfg.sleepEnabled = .reference ∧
    implements Config.reference .brk = true ∧ State.reset.cfg.breakMode = .stop ∧
    implements { Config.reference with breakMode := .nop } .brk = true := by decide

theorem witness_MoveResult :
    [Instr.mov 0 31, .movw 0 30, .movw 30 30, .ldi 16 0xFF, .inp 31 0x3F, .out 0x3F 0].all
      (implements Config.reference) = true := by decide

theorem witness_LoadResult :
    [Instr.lds 31 0x08FF, .ldX 0, .lddY 0 63, .lddZ 31 1].all (implements Config.reference) = true ∧
    [Instr.lds 31 0xFFFF, .ldX 0, .lddY 0 63, .lddZ 31 1].all (implements xmegaConfig) = true ∧
    ((atRamEnd.pair 26).toNat = 0x08FF ∧ ((atRamEnd.pair 28).toNat + 63) % 2 ^ 16 = 0x08FF ∧
      ((atRamEnd.pair 30).toNat + 1) % 2 ^ 16 = 0x08FF ∧ mapped Config.reference 0x08FF = true) ∧
    (xmegaRamped.rampx.toNat * 65536 + (xmegaRamped.pair 26).toNat = 0x1FFFF ∧
      (xmegaRamped.rampy.toNat * 65536 + (xmegaRamped.pair 28).toNat + 63) % 2 ^ 24 = 0x3E ∧
      (xmegaRamped.rampz.toNat * 65536 + (xmegaRamped.pair 30).toNat + 1) % 2 ^ 24 = 0x10000 ∧
      xmegaRamped.rampd.toNat * 65536 + 0xFFFF = 0x1FFFF ∧
      [0x1FFFF, 0x3E, 0x10000].all (mapped xmegaConfig) = true) ∧
    ((beyondRam.pair 26).toNat = 0x0900 ∧ ((beyondRam.pair 28).toNat + 0) % 2 ^ 16 = 0x0900 ∧
      ((beyondRam.pair 30).toNat + 0) % 2 ^ 16 = 0x0900 ∧ place Config.reference 0x0900 = .nothing) := by decide +kernel

theorem witness_LoadUpdateResult :
    (pointerParts atRamEnd .x 0 0x39 false 0x08FF ∧ pointerParts atRamEnd .y 0 0x3A false 0x08C0 ∧
      pointerParts atRamEnd .z 0 0x3B false 0x08FE ∧ pointerParts beyondRam .z 0 0x3B false 0x0900) ∧
    (pointerParts xmegaRamped .x 1 0x39 true 0xFFFF ∧ pointerParts xmegaRamped .y 0xFF 0x3A true 0xFFFF ∧
      pointerParts xmegaRamped .z 0 0x3B true 0xFFFF ∧ xmegaRamped.cfg.rampBits = 8) ∧
    (pointerParts bigRamped .z 3 0x3B false 0x0100 ∧ mapped bigConfig 0x0100 = true) ∧
    [Ptr.x, .y, .z].all (fun p => decide (25 ∉ p.regs) && implements Config.reference (loadIncOf p 25) &&
      implements Config.reference (loadDecOf p 25) && implements xmegaConfig (loadIncOf p 25) &&
      implements bigConfig (loadDecOf p 25)) = true ∧
    [0x08FF, 0x08C0, 0x08FE].all (mapped Config.reference) = true ∧ place Config.reference 0x0900 = .nothing ∧
    [0x1FFFF, 0xFFFF].all (mapped xmegaConfig) = true := by
  refine ⟨⟨?_, ?_, ?_, ?_⟩, ⟨?_, ?_, ?_, ?_⟩, ⟨?_, ?_⟩, ?_⟩ <;> decide +kernel

theorem witness_StoreResult :
    meetsInvariant atRamEnd = true ∧ meetsInvariant beyondRam = true ∧ meetsInvariant xmegaRamped = true ∧
    [Instr.sts 0x005F 31, .stX 0, .stdY 63 26, .stdZ 1 31].all (implements Config.reference) = true ∧
    ((atRamEnd.pair 26).toNat = 0x08FF ∧ ((atRamEnd.pair 28).toNat + 63) % 2 ^ 16 = 0x08FF ∧
      ((atRamEnd.pair 30).toNat + 1) % 2 ^ 16 = 0x08FF ∧ plainByte atRamEnd 0x08FF = true) ∧
    ((beyondRam.pair 26).toNat = 0x0900 ∧ place Config.reference 0x0900 = .nothing) ∧
    (place Config.reference 0x5F = .io 0x3F ∧ place Config.reference 0x5E = .io 0x3E ∧
      place Config.reference 0x5D = .io 0x3D ∧ Config.reference.core ≠ .avr1 ∧ Config.reference.spBits = 16) ∧
    (place smallConfig 0x5D = .io 0x3D ∧ smallConfig.core ≠ .avr1 ∧ smallConfig.spBits = 8 ∧
      implements smallConfig (.sts 0x5D 0) = true ∧ meetsInvariant (start { cfg := smallConfig }) = true) ∧
    (meetsInvariant xmegaEdge = true ∧ implements xmegaConfig (.sts 0x3C 0) = true ∧ xmegaEdge.rampd = 0 ∧
      place xmegaConfig 0x3C = .io 0x3C ∧ place xmegaConfig 0x3B = .io 0x3B ∧ place xmegaConfig 0x3A = .io 0x3A ∧
      place xmegaConfig 0x39 = .io 0x39 ∧ place xmegaConfig 0x38 = .io 0x38) := by decide +kernel

theorem witness_StoreUpdateResult :
    meetsInvariant atRamEnd = true ∧ meetsInvariant beyondRam = true ∧ meetsInvariant xmegaRamped = true ∧
    meetsInvariant bigRamped = true ∧
    (pointerParts atRamEnd .x 0 0x39 false 0x08FF ∧ pointerParts beyondRam .x 0 0x39 false 0x0900 ∧
      pointerParts xmegaRamped .y 0xFF 0x3A true 0xFFFF ∧ pointerParts bigRamped .z 3 0x3B false 0x0100) ∧
    [Ptr.x, .y, .z].all (fun p => decide (25 ∉ p.regs) && implements Config.reference (storeIncOf p 25) &&
      implements Config.reference (storeDecOf p 25) && implements xmegaConfig (storeIncOf p 25) &&
      implements bigConfig (storeDecOf p 25) && p.regs.all (fun g => place Config.reference 0x08FF != .register g)) =
        true ∧
    plainByte atRamEnd 0x08FF = true ∧ place Config.reference 0x0900 = .nothing ∧
    (pointerParts (start { regs := [(26, 0x60)] }) .x 0 0x39 false 0x0060 ∧
      place Config.reference ((0x0060 + (2 ^ 16 - 1)) % 2 ^ 16) = .io 0x3F) ∧
    (pointerParts (start { regs := [(26, 0x5D)] }) .x 0 0x39 false 0x005D ∧ place Config.reference 0x5D = .io 0x3D) ∧
    (pointerParts (start { cfg := xmegaConfig, regs := [(26, 0x3A)] }) .x 0 0x39 true 0x003A ∧
      place xmegaConfig 0x3A ≠ .io 0x39) := by
  refine ⟨?_, ?_, ?_, ?_, ⟨?_, ?_, ?_, ?_⟩, ?_, ?_, ?_, ⟨?_, ?_⟩, ⟨?_, ?_⟩, ?_, ?_⟩ <;> decide +kernel

theorem witness_PushPopResult :
    (let s := start { sp := 0x08FF }
     meetsInvariant s = true ∧ s.cfg.widthsOk = true ∧ implements s.cfg (.push 0) = true ∧
     mapped s.cfg (s.spMinus 0) = true ∧
       plainByte s (s.spMinus 0) = true ∧ implements s.cfg (.pop 31) = true ∧ place s.cfg (s.spPlus 1) = .nothing) ∧
    (let s := start { sp := 0x0900 }
     meetsInvariant s = true ∧ place s.cfg (s.spMinus 0) = .nothing) ∧
    (let s := start { sp := 0xFFFF }
     meetsInvariant s = true ∧ mapped s.cfg (s.spPlus 1) = true) ∧
    (let s := start { sp := 0x5F }
     meetsInvariant s = true ∧ place s.cfg (s.spMinus 0) = .io 0x3F) ∧
    implements xmegaConfig (.push 0) = true ∧
    [0x3C, 0x3B, 0x3A, 0x39, 0x38].all (fun a =>
      let s := start { cfg := xmegaConfig, sp := a }
      meetsInvariant s && place s.cfg (s.spMinus 0) == .io (BitVec.ofNat 6 a)) = true := by decide +kernel

/-- R93: a byte pushed onto SPL is lost. -/
theorem test_push_on_spl :
    shows (start { prog := [(0, 0x920F)], regs := [(0, 0x77)], sp := 0x5D }) [.sp 0x5C, .pc 1] = true := by decide +kernel

theorem witness_ProgramLoadResult :
    [Instr.lpm, .lpmZ 31, .lpmZInc 29].all (implements Config.reference) = true ∧
    [Instr.elpm, .elpmZ 31, .elpmZInc 29].all (implements bigConfig) = true ∧ (29 : Reg) ∉ Ptr.z.regs ∧
    (atRamEnd.pair 30).toNat / 2 < atRamEnd.cfg.flashWords ∧
    (let s := start { regs := [(31, 0x80)] }
     s.cfg.flashWords ≤ (s.pair 30).toNat / 2) ∧
    (let s := start { cfg := bigConfig, regs := [(30, 0xFF), (31, 0xFF)], data := [(0x5B, 3)] }
     (s.rampz.toNat * 65536 + (s.pair 30).toNat) / 2 < s.cfg.flashWords) ∧
    (let s := start { cfg := bigConfig, data := [(0x5B, 4)] }
     s.cfg.flashWords ≤ (s.rampz.toNat * 65536 + (s.pair 30).toNat) / 2) := by decide +kernel

theorem witness_SpmResult :
    implements Config.reference .spm = true ∧ Config.reference.spmEffect = .reference ∧
    implements xmegaConfig .spm = true ∧ implements xmegaConfig .spmZInc = true ∧ xmegaConfig.spmEffect = .platform ∧
    xmegaConfig.hasRampZ = true ∧ implements rmwConfig .spmZInc = true ∧ rmwConfig.spmEffect = .reference ∧
    rmwConfig.hasRampZ = false := by decide

theorem witness_JumpBranchResult :
    implements Config.reference .ijmp = true ∧ implements bigConfig .eijmp = true ∧
    implements Config.reference (.jmp 0x3FFFFF) = true := by decide

theorem witness_SkipResult :
    [Instr.cpse 0 31, .sbrc 31 7, .sbrs 0 0, .sbic 0x1F 7, .sbis 0 0].all (implements Config.reference) = true ∧
    (let s := start { prog := [(1, 0x940E)] }
     (s.reg 0 == s.reg 31) = true ∧ (!(s.reg 31).getLsbD 7) = true ∧
       progWord ((s.pc.toNat + 1) % 2 ^ s.cfg.pcBits) s = .next 0x940E) ∧
    (let s := start { pc := 0x3FFF, regs := [(0, 1)] }
     (s.reg 0).getLsbD 0 = true ∧ (s.reg 0 == s.reg 31) = false ∧
       s.cfg.flashWords ≤ (s.pc.toNat + 1) % 2 ^ s.cfg.pcBits) := by
  refine ⟨?_, ⟨?_, ?_, rfl⟩, ?_⟩ <;> decide +kernel

theorem witness_CallResult :
    (let s := start { sp := 0x0101, regs := [(30, 0xFF), (31, 0xFF)] }
     meetsInvariant s = true ∧ s.cfg.widthsOk = true ∧
     [Instr.rcall (-2048), .icall, .call 0x3FFFFF].all (implements s.cfg) = true ∧
       (∀ a ∈ callStores s, mapped s.cfg a = true) ∧ stackInSram s) ∧
    (let s := start { cfg := bigConfig, sp := 0x0102 }
     meetsInvariant s = true ∧ s.cfg.widthsOk = true ∧ implements s.cfg .eicall = true ∧
       (∀ a ∈ callStores s, mapped s.cfg a = true) ∧ stackInSram s ∧ s.cfg.pcBits = 22) := by decide +kernel

theorem witness_ReturnResult :
    (let s := start { sp := 0x08FD }
     meetsInvariant s = true ∧ s.cfg.widthsOk = true ∧ implements s.cfg .ret = true ∧ implements s.cfg .reti = true ∧
       (∀ a ∈ popAddresses s, mapped s.cfg a = true) ∧ (∀ a ∈ popAddresses s, isSram s.cfg a = true)) ∧
    (let s := start { cfg := bigConfig, sp := 0x21FC }
     meetsInvariant s = true ∧ s.cfg.widthsOk = true ∧ implements s.cfg .ret = true ∧
       (∀ a ∈ popAddresses s, mapped s.cfg a = true) ∧ (∀ a ∈ popAddresses s, isSram s.cfg a = true)) := by
  decide +kernel

theorem witness_CallThenReturn :
    (let s := start { cfg := bigConfig, sp := 0x0102, pc := 0x3FFFFF }
     meetsInvariant s = true ∧ s.cfg.widthsOk = true ∧ stackInSram s) ∧
    ∃ t, exec (.call 0x3FFFFF) (start { cfg := bigConfig, sp := 0x0102, pc := 0x3FFFFF }) = .next t ∧
      decide (t.pc = 0x3FFFFF) = true :=
  ⟨by decide +kernel, exists_next (by decide +kernel)⟩

theorem witness_ReadModifyWriteResult :
    (let s := start { cfg := rmwConfig, regs := [(30, 0xFF), (31, 0x3F)] }
     [Instr.xch 30, .las 31, .lac 0, .lat 16].all (implements s.cfg) = true ∧ (s.pair 30).toNat = 0x3FFF ∧
       isSram s.cfg 0x3FFF = true ∧ sramOk s ∧ meetsInvariant s = true ∧ plainByte s 0x3FFF = true ∧
       place s.cfg 0x3FFF ≠ .register 16) ∧
    (let s := start { cfg := rmwConfig, regs := [(31, 0x40)] }
     (s.pair 30).toNat = 0x4000 ∧ place s.cfg 0x4000 = .nothing) ∧
    (implements xmegaConfig (.lat 16) = true ∧ 0x1 * 65536 + 0xFFFF = 0x1FFFF ∧ mapped xmegaConfig 0x1FFFF = true ∧
      place xmegaConfig 0x3F = .io 0x3F ∧ place xmegaConfig 0x3E = .io 0x3E ∧ place xmegaConfig 0x38 = .io 0x38) ∧
    implements xmegaConfig (.des 15) = true := by decide +kernel

end Sys2Proof.Tests
end

section
/-! The bytes of program memory as the halves of its words (spec/20_memory.md R90, R91). -/

namespace Sys2Proof.Machine

open Sys2Proof

/-! ## The two bytes of a program word (R91) -/

theorem wordOfBytes_low (lo hi : Byte) : (wordOfBytes lo hi).extractLsb' 0 8 = lo :=
  BitVec.extractLsb'_append_eq_right

theorem wordOfBytes_high (lo hi : Byte) : (wordOfBytes lo hi).extractLsb' 8 8 = hi :=
  BitVec.extractLsb'_append_eq_left

/-! ## Reads of the program memory, inside the flash and beyond it (R90, R91) -/

theorem progWord_of_lt {w : Nat} {s : State} (h : w < s.cfg.flashWords) :
    progWord w s = .next (wordOfBytes (s.flashAt (2 * w)) (s.flashAt (2 * w + 1))) := if_pos h

theorem progByte_of_lt {b : Nat} {s : State} (h : b / 2 < s.cfg.flashWords) :
    progByte b s = .next (s.flashAt b) := if_pos h

theorem progByte_of_le {b : Nat} {s : State} (h : s.cfg.flashWords ≤ b / 2) :
    progByte b s = .fault (.progReadOutOfRange b) := if_neg (Nat.not_lt.mpr h)

/-- Byte address `b` is the even or the odd address of word `b / 2`, as its lowest bit says (R91). -/
theorem flashAt_eq_byte_of_word (s : State) (b : Nat) :
    s.flashAt b = if b % 2 = 0 then s.flashAt (2 * (b / 2)) else s.flashAt (2 * (b / 2) + 1) := by
  split
  case isTrue even => rw [show 2 * (b / 2) = b by omega]
  case isFalse odd => rw [show 2 * (b / 2) + 1 = b by omega]

/-- Settles O29: inside the flash the byte read is a half of the word read, beyond it the read faults. -/
theorem programBytesOfWord : Obligations.ProgramBytesOfWord := by
  intro s b
  rw [Nat.shiftRight_one]
  constructor
  · intro inside
    refine ⟨_, progWord_of_lt inside, ?_⟩
    rw [progByte_of_lt inside, wordOfBytes_low, wordOfBytes_high, ← flashAt_eq_byte_of_word]
  · exact progByte_of_le

end Sys2Proof.Machine
end

section
/-! The flags of an 8-bit addition: the arithmetic and the boolean form of each (spec/40_arithmetic.md R160). -/

namespace Sys2Proof.Machine

open Sys2Proof

/-! ## The sum of R160, as a number and bit by bit -/

theorem toNat_addResult (a b : Byte) (c : Bool) :
    (addResult a b c).toNat = (a.toNat + b.toNat + c.toNat) % 256 := BitVec.toNat_ofNat _ _

/-- The sum of R160 as the adder of the library, whose carries have lemmas. -/
theorem addResult_eq_add (a b : Byte) (c : Bool) : addResult a b c = a + b + (BitVec.ofBool c).setWidth 8 := by
  apply BitVec.eq_of_toNat_eq
  rw [toNat_addResult]
  cases c <;> simp

/-- The carry out of bit `i`, from that bit of the operands and of the sum: each bit of a sum is the exclusive or of the two
operand bits and the carry that enters it. -/
theorem carry_succ_eq_of_addResult (a b : Byte) (c : Bool) {i : Nat} (hi : i < 8) :
    BitVec.carry (i + 1) a b c =
      ((a.getLsbD i && b.getLsbD i) || (b.getLsbD i && !(addResult a b c).getLsbD i) ||
        (!(addResult a b c).getLsbD i && a.getLsbD i)) := by
  rw [addResult_eq_add, BitVec.getLsbD_add_add_bool hi, BitVec.carry_succ]
  cases a.getLsbD i <;> cases b.getLsbD i <;> cases BitVec.carry i a b c <;> rfl

/-! ## Half carry, carry and overflow -/

/-- H is the carry out of bit 3. -/
theorem halfCarry_eq_carry (a b : Byte) (c : Bool) :
    decide (15 < a.toNat % 16 + b.toNat % 16 + c.toNat) = BitVec.carry 4 a b c := rfl

/-- C is the carry out of bit 7. -/
theorem fullCarry_eq_carry (a b : Byte) (c : Bool) :
    decide (255 < a.toNat + b.toNat + c.toNat) = BitVec.carry 8 a b c := by
  rw [BitVec.carry, Nat.mod_eq_of_lt a.isLt, Nat.mod_eq_of_lt b.isLt]
  rfl

/-- Bit 7 of a byte is its sign. -/
theorem getLsbD_seven_eq_decide_neg (x : Byte) : x.getLsbD 7 = decide (x.toInt < 0) := by
  rw [← BitVec.msb_eq_toInt]
  exact (BitVec.msb_eq_getLsbD_last x).symm

theorem overflows8_eq_decide (v : Int) : overflows8 v = decide (v < -128 ∨ 127 < v) := (Bool.decide_or _ _).symm

theorem toInt_addResult (a b : Byte) (c : Bool) :
    (addResult a b c).toInt = (a.toInt + b.toInt + c.toNat).bmod 256 := by
  rw [addResult_eq_add]
  cases c <;> simp [BitVec.toInt_add]

/-- V: the signed sum leaves the range exactly when both operands have the sign that the result has not. -/
theorem overflows8_add_eq_signs (a b : Byte) (c : Bool) :
    overflows8 (a.toInt + b.toInt + c.toNat) =
      ((a.getLsbD 7 && b.getLsbD 7 && !(addResult a b c).getLsbD 7) ||
        (!a.getLsbD 7 && !b.getLsbD 7 && (addResult a b c).getLsbD 7)) := by
  have ha := And.intro a.le_toInt a.toInt_lt
  have hb := And.intro b.le_toInt b.toInt_lt
  have hc := c.toNat_le
  rw [Bool.eq_iff_iff]
  simp only [getLsbD_seven_eq_decide_neg, toInt_addResult, Int.bmod_def, overflows8_eq_decide, decide_eq_true_eq,
    Bool.or_eq_true, Bool.and_eq_true, Bool.not_eq_true', decide_eq_false_iff_not]
  omega

/-- Settles O34: H and C are the carries out of bits 3 and 7, V the disagreement of signs; the rest is what `addFlags`
writes and keeps. -/
theorem additionFlagFormulas : Obligations.AdditionFlagFormulas := by
  intro sreg a b c r f v
  have hH : getFlag f .H = BitVec.carry 4 a b c :=
    (getFlag_putHSVNZC_H ..).trans (halfCarry_eq_carry a b c)
  have hC : getFlag f .C = BitVec.carry 8 a b c :=
    (getFlag_putHSVNZC_C ..).trans (fullCarry_eq_carry a b c)
  have hV : getFlag f .V = overflows8 v := getFlag_putHSVNZC_V ..
  have hN : getFlag f .N = r.msb := getFlag_putHSVNZC_N ..
  refine ⟨toNat_addResult a b c, ?H, ?Hbits, ?C, ?Cbits, ?V, ?Vbits, ?N, getFlag_putHSVNZC_Z .., ?S,
    getFlag_putHSVNZC_T .., getFlag_putHSVNZC_I ..⟩
  case H => rw [hH, halfCarry_eq_carry]
  case Hbits => rw [hH, carry_succ_eq_of_addResult a b c (by decide)]
  case C => rw [hC, fullCarry_eq_carry]
  case Cbits => rw [hC, carry_succ_eq_of_addResult a b c (by decide)]
  case V => rw [hV, overflows8_eq_decide]
  case Vbits => rw [hV, overflows8_add_eq_signs]
  case N => rw [hN, BitVec.msb_eq_getLsbD_last]
  case S => rw [hN, hV]; exact getFlag_putHSVNZC_S ..

end Sys2Proof.Machine
end

section
/-! What the logic instructions, the right shifts and SWAP write and keep (spec/40_arithmetic.md R162, R163, R174 to R179,
R185 to R188). -/

namespace Sys2Proof.Machine

open Sys2Proof

/-! ## The end of a register operation -/

@[simp] theorem finishAlu_reg_same (d : Reg) (v sreg : Byte) (s : State) : (finishAlu d v sreg s).reg d = v :=
  State.reg_setReg_same s d v

@[simp] theorem finishAlu_sreg (d : Reg) (v sreg : Byte) (s : State) : (finishAlu d v sreg s).sreg = sreg := rfl

/-! ## Logic -/

/-- R162: `t` is `s` after a logic operation: in Rd the bits of `f` on those of Rd and of `b`, in C the value `c`. -/
def LogicDone (s t : State) (d : Reg) (f : Bool → Bool → Bool) (b : Byte) (c : Bool) : Prop :=
  t.pc = s.pcAfter 1 ∧ (∀ j, j < 8 → (t.reg d).getLsbD j = f ((s.reg d).getLsbD j) (b.getLsbD j)) ∧
    t.flag .V = false ∧ t.flag .N = (t.reg d).getLsbD 7 ∧ t.flag .S = t.flag .N ∧ t.flag .Z = (t.reg d == 0) ∧
    t.flag .C = c ∧ t.flag .H = s.flag .H ∧ t.flag .T = s.flag .T ∧ t.flag .I = s.flag .I

/-- The end of a logic operation: a result `v` with the bits of `f`, and the flags of R162 but for C. -/
theorem logicDone_finishAlu {s : State} {d : Reg} {f : Bool → Bool → Bool} {b v sreg : Byte} {c : Bool}
    (bits : ∀ j, j < 8 → v.getLsbD j = f ((s.reg d).getLsbD j) (b.getLsbD j))
    (flags : ∀ g, getFlag sreg g = if g = .C then c else getFlag (logicFlags s.sreg v) g) :
    LogicDone s (finishAlu d v sreg s) d f b c := by
  refine ⟨rfl, ?_, ?_⟩
  · simpa only [finishAlu_reg_same] using bits
  · simp [flags, logicFlags, State.flag, BitVec.msb_eq_getLsbD_last]

/-- `LogicFlags` keeps C (R162). -/
theorem getFlag_logicFlags_eq_ite (x v : Byte) (g : Flag) :
    getFlag (logicFlags x v) g = if g = .C then getFlag x .C else getFlag (logicFlags x v) g := by
  split
  case isTrue isC => rw [isC, getFlag_logicFlags _ _ _ (by decide)]
  case isFalse => rfl

/-- Settles O41: each instruction completes with `finishAlu`, its result is known bit by bit, and C is what `LogicFlags`
keeps, or what COM writes after it (R179). -/
theorem logicResult : Obligations.LogicResult := by
  intro s d i f b c impl instruction
  suffices ∃ t, exec i s = .next t ∧ LogicDone s t d f b c from this
  have kept := getFlag_logicFlags_eq_ite s.sreg
  rcases instruction with ⟨r, rfl, rfl, rfl, rfl⟩ | ⟨rfl, rfl, rfl⟩ | ⟨r, rfl, rfl, rfl, rfl⟩ | ⟨rfl, rfl, rfl⟩ |
    ⟨r, rfl, rfl, rfl, rfl⟩ | ⟨rfl, rfl, rfl⟩
  · exact ⟨_, requires_of impl, logicDone_finishAlu (fun _ _ => BitVec.getLsbD_and) (kept _)⟩
  · exact ⟨_, requires_of impl, logicDone_finishAlu (fun _ _ => BitVec.getLsbD_and) (kept _)⟩
  · exact ⟨_, requires_of impl, logicDone_finishAlu (fun _ _ => BitVec.getLsbD_or) (kept _)⟩
  · exact ⟨_, requires_of impl, logicDone_finishAlu (fun _ _ => BitVec.getLsbD_or) (kept _)⟩
  · exact ⟨_, requires_of impl, logicDone_finishAlu (fun _ _ => BitVec.getLsbD_xor) (kept _)⟩
  · have complement : ∀ j, j < 8 → (~~~(s.reg d)).getLsbD j = !(s.reg d).getLsbD j := fun j hj => by
      rw [BitVec.getLsbD_not, decide_eq_true hj, Bool.true_and]
    exact ⟨_, requires_of impl, logicDone_finishAlu complement fun g => getFlag_putFlag _ g .C true⟩

/-! ## Right shifts and SWAP -/

theorem toNat_shiftRight (top : Bool) (a : Byte) : (shiftRight top a).toNat = a.toNat / 2 + 128 * top.toNat := by
  have bound := a.isLt
  rw [shiftRight, BitVec.toNat_append, ← Nat.shiftLeft_add_eq_or_of_lt (BitVec.isLt _), BitVec.extractLsb'_toNat,
    BitVec.toNat_ofBool, Nat.shiftLeft_eq, Nat.shiftRight_one]
  omega

theorem getLsbD_seven_shiftRight (top : Bool) (a : Byte) : (shiftRight top a).getLsbD 7 = top := by
  rw [shiftRight, BitVec.getLsbD_append]
  cases top <;> rfl

theorem toNat_swapHalves (a : Byte) :
    (a.extractLsb' 0 4 ++ a.extractLsb' 4 4).toNat = a.toNat % 16 * 16 + a.toNat / 16 := by
  have bound := a.isLt
  rw [BitVec.toNat_append, ← Nat.shiftLeft_add_eq_or_of_lt (BitVec.isLt _), BitVec.extractLsb'_toNat,
    BitVec.extractLsb'_toNat, Nat.shiftLeft_eq, Nat.shiftRight_zero, Nat.shiftRight_eq_div_pow]
  omega

/-- R163: `t` is `s` after a right shift of Rd with `top` entering bit 7. -/
def ShiftDone (s t : State) (d : Reg) (top : Bool) : Prop :=
  t.pc = s.pcAfter 1 ∧ (t.reg d).toNat = (s.reg d).toNat / 2 + 128 * top.toNat ∧ t.flag .C = (s.reg d).getLsbD 0 ∧
    t.flag .N = top ∧ t.flag .N = (t.reg d).getLsbD 7 ∧ t.flag .Z = (t.reg d == 0) ∧
    t.flag .V = (t.flag .N ^^ t.flag .C) ∧ t.flag .S = (t.flag .N ^^ t.flag .V) ∧ t.flag .H = s.flag .H ∧
    t.flag .T = s.flag .T ∧ t.flag .I = s.flag .I

theorem shiftDone_finishAlu (s : State) (d : Reg) (top : Bool) :
    ShiftDone s (finishAlu d (shiftRight top (s.reg d))
      (shiftRightFlags s.sreg (s.reg d) (shiftRight top (s.reg d))) s) d top := by
  refine ⟨rfl, ?value, ?flags⟩
  case value => rw [finishAlu_reg_same, toNat_shiftRight]
  case flags =>
    simp [-BitVec.getLsbD_eq_getElem, shiftRightFlags, State.flag, BitVec.msb_eq_getLsbD_last,
      getLsbD_seven_shiftRight]

/-- Settles O42: the three right shifts differ only in what enters bit 7. -/
theorem shiftResult : Obligations.ShiftResult := by
  intro s d
  refine ⟨?shifts, ?swap⟩
  case shifts =>
    intro i top impl instruction
    suffices ∃ t, exec i s = .next t ∧ ShiftDone s t d top from this
    rcases instruction with ⟨rfl, rfl⟩ | ⟨rfl, rfl⟩ | ⟨rfl, rfl⟩
    · exact ⟨_, requires_of impl, shiftDone_finishAlu s d _⟩
    · exact ⟨_, requires_of impl, shiftDone_finishAlu s d _⟩
    · rw [← BitVec.msb_eq_getLsbD_last (s.reg d)]
      exact ⟨_, requires_of impl, shiftDone_finishAlu s d _⟩
  case swap =>
    intro impl
    refine ⟨_, requires_of impl, rfl, ?_, rfl⟩
    rw [State.advance_reg, State.reg_setReg_same, toNat_swapHalves]

end Sys2Proof.Machine
end

section
/-! The opcode map and the encoder as one table: for each row of R135 its format, the decoding of every encoding, the
encoding of every decoded word (spec/30_encoding.md R120 to R135). -/

namespace Sys2Proof

open Machine

/-! ## Disjoint rows (R134) -/

/-- Two patterns that differ in a bit of both masks select no common word. -/
theorem not_both_select {w m n p q : Word} (differ : m &&& n &&& (p ^^^ q) ≠ 0) (hp : w &&& m = p) : w &&& n ≠ q := by
  intro hq
  apply differ
  subst hp hq
  apply BitVec.eq_of_getLsbD_eq
  intro i _
  simp only [BitVec.getLsbD_and, BitVec.getLsbD_xor, BitVec.getLsbD_zero, BitVec.ofNat_eq_ofNat]
  cases w.getLsbD i <;> cases m.getLsbD i <;> cases n.getLsbD i <;> rfl

theorem Row.selects_iff {p : Row} {w : Word} : p.selects w = true ↔ w &&& p.mask = p.pattern := beq_iff_eq

theorem opcodeMap_pairwise : opcodeMap.Pairwise (fun p q => p.mask &&& q.mask &&& (p.pattern ^^^ q.pattern) ≠ 0) := by
  decide +kernel

/-- At most one row selects a word. -/
theorem row_eq_of_selects {w : Word} {p q : Row} (hp : p ∈ opcodeMap) (hq : q ∈ opcodeMap) (sp : p.selects w = true)
    (sq : q.selects w = true) : p = q := by
  by_contra ne
  have symmetric : Std.Symm fun p q : Row => p.mask &&& q.mask &&& (p.pattern ^^^ q.pattern) ≠ 0 := ⟨fun p q h => by
    rwa [BitVec.and_comm q.mask, BitVec.xor_comm q.pattern]⟩
  exact not_both_select (opcodeMap_pairwise.forall hp hq ne) (Row.selects_iff.mp sp) (Row.selects_iff.mp sq)

/-- Settles O2: a bit of both masks tells any two rows apart. -/
theorem opcodeRowsDisjoint : Obligations.OpcodeRowsDisjoint :=
  ⟨rfl, opcodeMap_pairwise, fun _ _ hp _ hq sp sq => by rw [row_eq_of_selects hp hq sp sq]; exact ⟨rfl, rfl⟩⟩

/-- R134: the decoder takes the row that selects the first word, wherever it stands in the map. -/
theorem decodeWords_eq_some_iff {w k : Word} {i : Instr} :
    decodeWords w k = some i ↔ ∃ p ∈ opcodeMap, p.selects w = true ∧ p.build w k = i := by
  unfold decodeWords
  constructor
  · intro h
    obtain ⟨p, found, hi⟩ := Option.map_eq_some_iff.mp h
    exact ⟨p, List.mem_of_find?_eq_some found, List.find?_some (p := fun row : Row => row.selects w) found, hi⟩
  · rintro ⟨p, hp, sp, rfl⟩
    obtain ⟨q, found⟩ := Option.isSome_iff_exists.mp
      (List.find?_isSome (p := fun row : Row => row.selects w).mpr ⟨p, hp, sp⟩)
    have sq : q.selects w = true := List.find?_some (p := fun row : Row => row.selects w) found
    rw [found, row_eq_of_selects hp (List.mem_of_find?_eq_some found) sp sq]
    rfl

/-! ## Register classes (R124): the field of a register of the class names it again -/

theorem isHigh_highReg (n : BitVec 4) : (highReg n).isHigh = true := by revert n; decide

theorem isQuarter_quarterReg (n : BitVec 3) : (quarterReg n).isQuarter = true := by revert n; decide

theorem isEven_evenReg (n : BitVec 4) : (evenReg n).isEven = true := by revert n; decide

theorem isPairLow_pairReg (p : BitVec 2) : (pairReg p).isPairLow = true := by revert p; decide

theorem highReg_of_low {r : Reg} {n : BitVec 4} (h : r.isHigh = true) (hn : n = r.extractLsb' 0 4) : highReg n = r := by
  subst hn; revert r; decide

theorem quarterReg_of_low {r : Reg} {n : BitVec 3} (h : r.isQuarter = true) (hn : n = r.extractLsb' 0 3) :
    quarterReg n = r := by
  subst hn; revert r; decide

theorem evenReg_of_high {r : Reg} {n : BitVec 4} (h : r.isEven = true) (hn : n = r.extractLsb' 1 4) : evenReg n = r := by
  subst hn; revert r; decide

theorem pairReg_of_middle {r : Reg} {p : BitVec 2} (h : r.isPairLow = true) (hp : p = r.extractLsb' 1 2) :
    pairReg p = r := by
  subst hp; revert r; decide

/-! ## Formats (R123) -/

/-- A format of R123: the bits that are the same in every word of it, its operands read from its words, and its words written
from operands that lie in their classes. -/
structure Format (α : Type) where
  mask : Word
  fixed : Word
  read : Word → Word → α
  first : α → Word
  rest : α → List Word := fun _ => []
  ok : α → Bool := fun _ => true
  /-- The fixed bits of a written word. -/
  fixed_bits : ∀ a i, i < 16 → mask.getLsbD i = true → (first a).getLsbD i = fixed.getLsbD i
  /-- The other bits of a word come back when its operands are written. -/
  operand_bits : ∀ w k i, i < 16 → mask.getLsbD i = false → (first (read w k)).getLsbD i = w.getLsbD i
  /-- Operands that are written are read back. -/
  read_write : ∀ a, ok a = true → read (first a) ((rest a).headD 0) = a
  ok_read : ∀ w k, ok (read w k) = true
  rest_read : ∀ w k, rest (read w k) = [] ∨ rest (read w k) = [k] := by exact fun _ _ => .inl rfl

/-- One 16-bit pattern without operands. -/
def Format.word (w : Word) : Format Unit where
  mask := 0xFFFF
  fixed := w
  read _ _ := ()
  first _ := w
  fixed_bits _ _ _ _ := rfl
  operand_bits _ _ i hi := by interval_cases i <;> simp
  read_write _ _ := rfl
  ok_read _ _ := rfl

/-- F_RR. -/
def Format.rr (op : BitVec 6) : Format (Reg × Reg) where
  mask := 0xFC00
  fixed := encRR op 0 0
  read w _ := (fieldD w, fieldR w)
  first a := encRR op a.1 a.2
  fixed_bits a i hi := by
    simp only [encRR, BitVec.getLsbD_append, BitVec.getLsbD_extractLsb']
    interval_cases i <;> simp
  operand_bits w k i hi := by
    simp only [encRR, fieldD, fieldR, BitVec.getLsbD_append, BitVec.getLsbD_extractLsb']
    interval_cases i <;> simp
  read_write a _ := by
    refine Prod.ext (BitVec.eq_of_getLsbD_eq fun i hi => ?_) (BitVec.eq_of_getLsbD_eq fun i hi => ?_) <;>
    simp only [encRR, fieldD, fieldR, BitVec.getLsbD_append, BitVec.getLsbD_extractLsb'] <;>
    interval_cases i <;> simp
  ok_read _ _ := rfl

/-- F_IMM8. -/
def Format.imm8 (op : BitVec 4) : Format (Reg × Byte) where
  mask := 0xF000
  fixed := encImm8 op 0 0
  read w _ := (highReg (w.extractLsb' 4 4), fieldK8 w)
  first a := encImm8 op a.1 a.2
  ok a := a.1.isHigh
  fixed_bits a i hi := by
    simp only [encImm8, BitVec.getLsbD_append, BitVec.getLsbD_extractLsb']
    interval_cases i <;> simp
  operand_bits w k i hi := by
    simp only [encImm8, highReg, fieldK8, BitVec.getLsbD_append, BitVec.getLsbD_extractLsb']
    interval_cases i <;> simp
  read_write a h := by
    refine Prod.ext (highReg_of_low h (BitVec.eq_of_getLsbD_eq fun i hi => ?_))
      (BitVec.eq_of_getLsbD_eq fun i hi => ?_) <;>
    simp only [encImm8, fieldK8, BitVec.getLsbD_append, BitVec.getLsbD_extractLsb'] <;>
    interval_cases i <;> simp
  ok_read _ _ := isHigh_highReg _

/-- MULS: two registers from 16 up under a fixed byte. -/
def Format.muls  : Format (Reg × Reg) where
  mask := 0xFF00
  fixed := 0x0200
  read w _ := (highReg (w.extractLsb' 4 4), highReg (w.extractLsb' 0 4))
  first a := 0x02#8 ++ a.1.extractLsb' 0 4 ++ a.2.extractLsb' 0 4
  ok a := a.1.isHigh && a.2.isHigh
  fixed_bits a i hi := by
    simp only [BitVec.getLsbD_append, BitVec.getLsbD_extractLsb']
    interval_cases i <;> simp
  operand_bits w k i hi := by
    simp only [highReg, BitVec.getLsbD_append, BitVec.getLsbD_extractLsb']
    interval_cases i <;> simp
  read_write a h := by
    obtain ⟨h1, h2⟩ := Bool.and_eq_true_iff.mp h
    refine Prod.ext (highReg_of_low h1 (BitVec.eq_of_getLsbD_eq fun i hi => ?_))
      (highReg_of_low h2 (BitVec.eq_of_getLsbD_eq fun i hi => ?_)) <;>
    simp only [BitVec.getLsbD_append, BitVec.getLsbD_extractLsb'] <;>
    interval_cases i <;> simp
  ok_read _ _ := by rw [isHigh_highReg, isHigh_highReg]; rfl

/-- MOVW: two even registers under a fixed byte. -/
def Format.movw  : Format (Reg × Reg) where
  mask := 0xFF00
  fixed := 0x0100
  read w _ := (evenReg (w.extractLsb' 4 4), evenReg (w.extractLsb' 0 4))
  first a := 0x01#8 ++ a.1.extractLsb' 1 4 ++ a.2.extractLsb' 1 4
  ok a := a.1.isEven && a.2.isEven
  fixed_bits a i hi := by
    simp only [BitVec.getLsbD_append, BitVec.getLsbD_extractLsb']
    interval_cases i <;> simp
  operand_bits w k i hi := by
    simp only [evenReg, BitVec.getLsbD_append, BitVec.getLsbD_extractLsb']
    interval_cases i <;> simp
  read_write a h := by
    obtain ⟨h1, h2⟩ := Bool.and_eq_true_iff.mp h
    refine Prod.ext (evenReg_of_high h1 (BitVec.eq_of_getLsbD_eq fun i hi => ?_))
      (evenReg_of_high h2 (BitVec.eq_of_getLsbD_eq fun i hi => ?_)) <;>
    simp only [BitVec.getLsbD_append, BitVec.getLsbD_extractLsb'] <;>
    interval_cases i <;> simp
  ok_read _ _ := by rw [isEven_evenReg, isEven_evenReg]; rfl

/-- F_MULQ. -/
def Format.mulQ (o1 o0 : BitVec 1) : Format (Reg × Reg) where
  mask := 0xFF88
  fixed := encMulQ o1 o0 0 0
  read w _ := (quarterReg (w.extractLsb' 4 3), quarterReg (w.extractLsb' 0 3))
  first a := encMulQ o1 o0 a.1 a.2
  ok a := a.1.isQuarter && a.2.isQuarter
  fixed_bits a i hi := by
    simp only [encMulQ, BitVec.getLsbD_append, BitVec.getLsbD_extractLsb']
    interval_cases i <;> simp
  operand_bits w k i hi := by
    simp only [encMulQ, quarterReg, BitVec.getLsbD_append, BitVec.getLsbD_extractLsb']
    interval_cases i <;> simp
  read_write a h := by
    obtain ⟨h1, h2⟩ := Bool.and_eq_true_iff.mp h
    refine Prod.ext (quarterReg_of_low h1 (BitVec.eq_of_getLsbD_eq fun i hi => ?_))
      (quarterReg_of_low h2 (BitVec.eq_of_getLsbD_eq fun i hi => ?_)) <;>
    simp only [encMulQ, BitVec.getLsbD_append, BitVec.getLsbD_extractLsb'] <;>
    interval_cases i <;> simp
  ok_read _ _ := by rw [isQuarter_quarterReg, isQuarter_quarterReg]; rfl

/-- F_DISP. -/
def Format.disp (s y : BitVec 1) : Format (Reg × BitVec 6) where
  mask := 0xD208
  fixed := encDisp s y 0 0
  read w _ := (fieldD w, fieldQ w)
  first a := encDisp s y a.1 a.2
  fixed_bits a i hi := by
    simp only [encDisp, BitVec.getLsbD_append, BitVec.getLsbD_extractLsb']
    interval_cases i <;> simp
  operand_bits w k i hi := by
    simp only [encDisp, fieldD, fieldQ, BitVec.getLsbD_append, BitVec.getLsbD_extractLsb']
    interval_cases i <;> simp
  read_write a _ := by
    refine Prod.ext (BitVec.eq_of_getLsbD_eq fun i hi => ?_) (BitVec.eq_of_getLsbD_eq fun i hi => ?_) <;>
    simp only [encDisp, fieldD, fieldQ, BitVec.getLsbD_append, BitVec.getLsbD_extractLsb'] <;>
    interval_cases i <;> simp
  ok_read _ _ := rfl

/-- F_LS and F_R: one register between seven bits and four. -/
def Format.reg (p : BitVec 7) (op : BitVec 4) : Format Reg where
  mask := 0xFE0F
  fixed := p ++ 0#5 ++ op
  read w _ := fieldD w
  first a := p ++ a ++ op
  fixed_bits a i hi := by
    simp only [BitVec.getLsbD_append]
    interval_cases i <;> simp
  operand_bits w k i hi := by
    simp only [fieldD, BitVec.getLsbD_append, BitVec.getLsbD_extractLsb']
    interval_cases i <;> simp
  read_write a _ := by
    refine BitVec.eq_of_getLsbD_eq fun i hi => ?_
    simp only [fieldD, BitVec.getLsbD_append, BitVec.getLsbD_extractLsb']
    interval_cases i <;> simp
  ok_read _ _ := rfl

/-- F_LS32. -/
def Format.ls32 (s : BitVec 1) : Format (Reg × Word) where
  mask := 0xFE0F
  fixed := encLs s 0 0
  read w k := (fieldD w, k)
  first a := encLs s a.1 0
  rest a := [a.2]
  fixed_bits a i hi := by
    simp only [encLs, BitVec.getLsbD_append]
    interval_cases i <;> simp
  operand_bits w k i hi := by
    simp only [encLs, fieldD, BitVec.getLsbD_append, BitVec.getLsbD_extractLsb']
    interval_cases i <;> simp
  read_write a _ := by
    refine Prod.ext (BitVec.eq_of_getLsbD_eq fun i hi => ?_) rfl
    simp only [encLs, fieldD, BitVec.getLsbD_append, BitVec.getLsbD_extractLsb']
    interval_cases i <;> simp
  ok_read _ _ := rfl
  rest_read _ _ := .inr rfl

/-- F_SREG. -/
def Format.sreg (b : BitVec 1) : Format (BitVec 3) where
  mask := 0xFF8F
  fixed := encSreg b 0
  read w _ := w.extractLsb' 4 3
  first a := encSreg b a
  fixed_bits a i hi := by
    simp only [encSreg, BitVec.getLsbD_append]
    interval_cases i <;> simp
  operand_bits w k i hi := by
    simp only [encSreg, BitVec.getLsbD_append, BitVec.getLsbD_extractLsb']
    interval_cases i <;> simp
  read_write a _ := by
    refine BitVec.eq_of_getLsbD_eq fun i hi => ?_
    simp only [encSreg, BitVec.getLsbD_append, BitVec.getLsbD_extractLsb']
    interval_cases i <;> simp
  ok_read _ _ := rfl

/-- DES. -/
def Format.des  : Format (BitVec 4) where
  mask := 0xFF0F
  fixed := 0x940B
  read w _ := w.extractLsb' 4 4
  first a := 0x94#8 ++ a ++ 0xB#4
  fixed_bits a i hi := by
    simp only [BitVec.getLsbD_append]
    interval_cases i <;> simp
  operand_bits w k i hi := by
    simp only [BitVec.getLsbD_append, BitVec.getLsbD_extractLsb']
    interval_cases i <;> simp
  read_write a _ := by
    refine BitVec.eq_of_getLsbD_eq fun i hi => ?_
    simp only [BitVec.getLsbD_append, BitVec.getLsbD_extractLsb']
    interval_cases i <;> simp
  ok_read _ _ := rfl

/-- F_ABS22. -/
def Format.abs22 (c : BitVec 1) : Format (BitVec 22) where
  mask := 0xFE0E
  fixed := encAbs22 c 0
  read w k := fieldK22 w k
  first a := encAbs22 c a
  rest a := [a.extractLsb' 0 16]
  fixed_bits a i hi := by
    simp only [encAbs22, BitVec.getLsbD_append, BitVec.getLsbD_extractLsb']
    interval_cases i <;> simp
  operand_bits w k i hi := by
    simp only [encAbs22, fieldK22, BitVec.getLsbD_append, BitVec.getLsbD_extractLsb']
    interval_cases i <;> simp
  read_write a _ := by
    refine BitVec.eq_of_getLsbD_eq fun i hi => ?_
    simp only [encAbs22, fieldK22, List.headD_cons, BitVec.getLsbD_append, BitVec.getLsbD_extractLsb']
    interval_cases i <;> simp
  ok_read _ _ := rfl
  rest_read w k := .inr (congrArg (· :: []) (BitVec.eq_of_getLsbD_eq fun i hi => by
    simp only [fieldK22, BitVec.getLsbD_append, BitVec.getLsbD_extractLsb']
    interval_cases i <;> simp))

/-- F_IW. -/
def Format.iw (o : BitVec 1) : Format (Reg × BitVec 6) where
  mask := 0xFF00
  fixed := encIw o 0 0
  read w _ := (pairReg (w.extractLsb' 4 2), fieldK6 w)
  first a := encIw o a.1 a.2
  ok a := a.1.isPairLow
  fixed_bits a i hi := by
    simp only [encIw, BitVec.getLsbD_append, BitVec.getLsbD_extractLsb']
    interval_cases i <;> simp
  operand_bits w k i hi := by
    simp only [encIw, pairReg, fieldK6, BitVec.getLsbD_append, BitVec.getLsbD_extractLsb']
    interval_cases i <;> simp
  read_write a h := by
    refine Prod.ext (pairReg_of_middle h (BitVec.eq_of_getLsbD_eq fun i hi => ?_))
      (BitVec.eq_of_getLsbD_eq fun i hi => ?_) <;>
    simp only [encIw, fieldK6, BitVec.getLsbD_append, BitVec.getLsbD_extractLsb'] <;>
    interval_cases i <;> simp
  ok_read _ _ := isPairLow_pairReg _

/-- F_IOBIT. -/
def Format.ioBit (op : BitVec 2) : Format (BitVec 5 × BitVec 3) where
  mask := 0xFF00
  fixed := encIoBit op 0 0
  read w _ := (w.extractLsb' 3 5, w.extractLsb' 0 3)
  first a := encIoBit op a.1 a.2
  fixed_bits a i hi := by
    simp only [encIoBit, BitVec.getLsbD_append]
    interval_cases i <;> simp
  operand_bits w k i hi := by
    simp only [encIoBit, BitVec.getLsbD_append, BitVec.getLsbD_extractLsb']
    interval_cases i <;> simp
  read_write a _ := by
    refine Prod.ext (BitVec.eq_of_getLsbD_eq fun i hi => ?_) (BitVec.eq_of_getLsbD_eq fun i hi => ?_) <;>
    simp only [encIoBit, BitVec.getLsbD_append, BitVec.getLsbD_extractLsb'] <;>
    interval_cases i <;> simp
  ok_read _ _ := rfl

/-- F_IO. -/
def Format.io (s : BitVec 1) : Format (Reg × BitVec 6) where
  mask := 0xF800
  fixed := encIo s 0 0
  read w _ := (fieldD w, fieldA w)
  first a := encIo s a.1 a.2
  fixed_bits a i hi := by
    simp only [encIo, BitVec.getLsbD_append, BitVec.getLsbD_extractLsb']
    interval_cases i <;> simp
  operand_bits w k i hi := by
    simp only [encIo, fieldD, fieldA, BitVec.getLsbD_append, BitVec.getLsbD_extractLsb']
    interval_cases i <;> simp
  read_write a _ := by
    refine Prod.ext (BitVec.eq_of_getLsbD_eq fun i hi => ?_) (BitVec.eq_of_getLsbD_eq fun i hi => ?_) <;>
    simp only [encIo, fieldD, fieldA, BitVec.getLsbD_append, BitVec.getLsbD_extractLsb'] <;>
    interval_cases i <;> simp
  ok_read _ _ := rfl

/-- RJMP and RCALL: twelve bits under a fixed four. -/
def Format.relative (op : BitVec 4) : Format (BitVec 12) where
  mask := 0xF000
  fixed := op ++ 0#12
  read w _ := w.extractLsb' 0 12
  first a := op ++ a
  fixed_bits a i hi := by
    simp only [BitVec.getLsbD_append]
    interval_cases i <;> simp
  operand_bits w k i hi := by
    simp only [BitVec.getLsbD_append, BitVec.getLsbD_extractLsb']
    interval_cases i <;> simp
  read_write a _ := by
    refine BitVec.eq_of_getLsbD_eq fun i hi => ?_
    simp only [BitVec.getLsbD_append, BitVec.getLsbD_extractLsb']
    interval_cases i <;> simp
  ok_read _ _ := rfl

/-- F_BR. -/
def Format.branch (b : BitVec 1) : Format (BitVec 3 × BitVec 7) where
  mask := 0xFC00
  fixed := encBr b 0 0
  read w _ := (w.extractLsb' 0 3, w.extractLsb' 3 7)
  first a := encBr b a.1 a.2
  fixed_bits a i hi := by
    simp only [encBr, BitVec.getLsbD_append]
    interval_cases i <;> simp
  operand_bits w k i hi := by
    simp only [encBr, BitVec.getLsbD_append, BitVec.getLsbD_extractLsb']
    interval_cases i <;> simp
  read_write a _ := by
    refine Prod.ext (BitVec.eq_of_getLsbD_eq fun i hi => ?_) (BitVec.eq_of_getLsbD_eq fun i hi => ?_) <;>
    simp only [encBr, BitVec.getLsbD_append, BitVec.getLsbD_extractLsb'] <;>
    interval_cases i <;> simp
  ok_read _ _ := rfl

/-- F_RBIT. -/
def Format.regBit (op : BitVec 2) : Format (Reg × BitVec 3) where
  mask := 0xFE08
  fixed := encRBit op 0 0
  read w _ := (fieldD w, w.extractLsb' 0 3)
  first a := encRBit op a.1 a.2
  fixed_bits a i hi := by
    simp only [encRBit, BitVec.getLsbD_append]
    interval_cases i <;> simp
  operand_bits w k i hi := by
    simp only [encRBit, fieldD, BitVec.getLsbD_append, BitVec.getLsbD_extractLsb']
    interval_cases i <;> simp
  read_write a _ := by
    refine Prod.ext (BitVec.eq_of_getLsbD_eq fun i hi => ?_) (BitVec.eq_of_getLsbD_eq fun i hi => ?_) <;>
    simp only [encRBit, fieldD, BitVec.getLsbD_append, BitVec.getLsbD_extractLsb'] <;>
    interval_cases i <;> simp
  ok_read _ _ := rfl

/-! ## The opcode map by formats -/

/-- A row of the opcode map: its format, and the instruction of its operands. -/
structure FormatRow where
  operands : Type
  format : Format operands
  instr : operands → Instr
  wellFormed_instr : ∀ a, (instr a).wellFormed = format.ok a
  encode_instr : ∀ a, encode (instr a) = format.first a :: format.rest a
  encode_length : ∀ a, Laws.EncodedLength.Statement (instr a)

/-- The row as the decoder holds it. -/
def FormatRow.row (e : FormatRow) : Row := ⟨e.format.mask, e.format.fixed, fun w k => e.instr (e.format.read w k)⟩

/-- The 97 rows of R135 by their formats. -/
def formatRows : List FormatRow := [
  ⟨_, .word 0x0000, fun _ => .nop, fun _ => rfl, fun _ => rfl, fun _ => Laws.EncodedLength.nop⟩,
  ⟨_, .movw, fun a => .movw a.1 a.2, fun _ => rfl, fun _ => rfl, fun _ => Laws.EncodedLength.movw _ _⟩,
  ⟨_, .muls, fun a => .muls a.1 a.2, fun _ => rfl, fun _ => rfl, fun _ => Laws.EncodedLength.muls _ _⟩,
  ⟨_, .mulQ 0 0, fun a => .mulsu a.1 a.2, fun _ => rfl, fun _ => rfl, fun _ => Laws.EncodedLength.mulsu _ _⟩,
  ⟨_, .mulQ 0 1, fun a => .fmul a.1 a.2, fun _ => rfl, fun _ => rfl, fun _ => Laws.EncodedLength.fmul _ _⟩,
  ⟨_, .mulQ 1 0, fun a => .fmuls a.1 a.2, fun _ => rfl, fun _ => rfl, fun _ => Laws.EncodedLength.fmuls _ _⟩,
  ⟨_, .mulQ 1 1, fun a => .fmulsu a.1 a.2, fun _ => rfl, fun _ => rfl, fun _ => Laws.EncodedLength.fmulsu _ _⟩,
  ⟨_, .rr 0b000001, fun a => .cpc a.1 a.2, fun _ => rfl, fun _ => rfl, fun _ => Laws.EncodedLength.cpc _ _⟩,
  ⟨_, .rr 0b000010, fun a => .sbc a.1 a.2, fun _ => rfl, fun _ => rfl, fun _ => Laws.EncodedLength.sbc _ _⟩,
  ⟨_, .rr 0b000011, fun a => .add a.1 a.2, fun _ => rfl, fun _ => rfl, fun _ => Laws.EncodedLength.add _ _⟩,
  ⟨_, .rr 0b000100, fun a => .cpse a.1 a.2, fun _ => rfl, fun _ => rfl, fun _ => Laws.EncodedLength.cpse _ _⟩,
  ⟨_, .rr 0b000101, fun a => .cp a.1 a.2, fun _ => rfl, fun _ => rfl, fun _ => Laws.EncodedLength.cp _ _⟩,
  ⟨_, .rr 0b000110, fun a => .sub a.1 a.2, fun _ => rfl, fun _ => rfl, fun _ => Laws.EncodedLength.sub _ _⟩,
  ⟨_, .rr 0b000111, fun a => .adc a.1 a.2, fun _ => rfl, fun _ => rfl, fun _ => Laws.EncodedLength.adc _ _⟩,
  ⟨_, .rr 0b001000, fun a => .and a.1 a.2, fun _ => rfl, fun _ => rfl, fun _ => Laws.EncodedLength.and _ _⟩,
  ⟨_, .rr 0b001001, fun a => .eor a.1 a.2, fun _ => rfl, fun _ => rfl, fun _ => Laws.EncodedLength.eor _ _⟩,
  ⟨_, .rr 0b001010, fun a => .or a.1 a.2, fun _ => rfl, fun _ => rfl, fun _ => Laws.EncodedLength.or _ _⟩,
  ⟨_, .rr 0b001011, fun a => .mov a.1 a.2, fun _ => rfl, fun _ => rfl, fun _ => Laws.EncodedLength.mov _ _⟩,
  ⟨_, .imm8 0b0011, fun a => .cpi a.1 a.2, fun _ => rfl, fun _ => rfl, fun _ => Laws.EncodedLength.cpi _ _⟩,
  ⟨_, .imm8 0b0100, fun a => .sbci a.1 a.2, fun _ => rfl, fun _ => rfl, fun _ => Laws.EncodedLength.sbci _ _⟩,
  ⟨_, .imm8 0b0101, fun a => .subi a.1 a.2, fun _ => rfl, fun _ => rfl, fun _ => Laws.EncodedLength.subi _ _⟩,
  ⟨_, .imm8 0b0110, fun a => .ori a.1 a.2, fun _ => rfl, fun _ => rfl, fun _ => Laws.EncodedLength.ori _ _⟩,
  ⟨_, .imm8 0b0111, fun a => .andi a.1 a.2, fun _ => rfl, fun _ => rfl, fun _ => Laws.EncodedLength.andi _ _⟩,
  ⟨_, .disp 0 0, fun a => .lddZ a.1 a.2, fun _ => rfl, fun _ => rfl, fun _ => Laws.EncodedLength.lddZ _ _⟩,
  ⟨_, .disp 0 1, fun a => .lddY a.1 a.2, fun _ => rfl, fun _ => rfl, fun _ => Laws.EncodedLength.lddY _ _⟩,
  ⟨_, .disp 1 0, fun a => .stdZ a.2 a.1, fun _ => rfl, fun _ => rfl, fun _ => Laws.EncodedLength.stdZ _ _⟩,
  ⟨_, .disp 1 1, fun a => .stdY a.2 a.1, fun _ => rfl, fun _ => rfl, fun _ => Laws.EncodedLength.stdY _ _⟩,
  ⟨_, .ls32 0, fun a => .lds a.1 a.2, fun _ => rfl, fun _ => rfl, fun _ => Laws.EncodedLength.lds _ _⟩,
  ⟨_, .reg 0x48 0b0001, .ldZInc, fun _ => rfl, fun _ => rfl, fun _ => Laws.EncodedLength.ldZInc _⟩,
  ⟨_, .reg 0x48 0b0010, .ldZDec, fun _ => rfl, fun _ => rfl, fun _ => Laws.EncodedLength.ldZDec _⟩,
  ⟨_, .reg 0x48 0b0100, .lpmZ, fun _ => rfl, fun _ => rfl, fun _ => Laws.EncodedLength.lpmZ _⟩,
  ⟨_, .reg 0x48 0b0101, .lpmZInc, fun _ => rfl, fun _ => rfl, fun _ => Laws.EncodedLength.lpmZInc _⟩,
  ⟨_, .reg 0x48 0b0110, .elpmZ, fun _ => rfl, fun _ => rfl, fun _ => Laws.EncodedLength.elpmZ _⟩,
  ⟨_, .reg 0x48 0b0111, .elpmZInc, fun _ => rfl, fun _ => rfl, fun _ => Laws.EncodedLength.elpmZInc _⟩,
  ⟨_, .reg 0x48 0b1001, .ldYInc, fun _ => rfl, fun _ => rfl, fun _ => Laws.EncodedLength.ldYInc _⟩,
  ⟨_, .reg 0x48 0b1010, .ldYDec, fun _ => rfl, fun _ => rfl, fun _ => Laws.EncodedLength.ldYDec _⟩,
  ⟨_, .reg 0x48 0b1100, .ldX, fun _ => rfl, fun _ => rfl, fun _ => Laws.EncodedLength.ldX _⟩,
  ⟨_, .reg 0x48 0b1101, .ldXInc, fun _ => rfl, fun _ => rfl, fun _ => Laws.EncodedLength.ldXInc _⟩,
  ⟨_, .reg 0x48 0b1110, .ldXDec, fun _ => rfl, fun _ => rfl, fun _ => Laws.EncodedLength.ldXDec _⟩,
  ⟨_, .reg 0x48 0b1111, .pop, fun _ => rfl, fun _ => rfl, fun _ => Laws.EncodedLength.pop _⟩,
  ⟨_, .ls32 1, fun a => .sts a.2 a.1, fun _ => rfl, fun _ => rfl, fun _ => Laws.EncodedLength.sts _ _⟩,
  ⟨_, .reg 0x49 0b0001, .stZInc, fun _ => rfl, fun _ => rfl, fun _ => Laws.EncodedLength.stZInc _⟩,
  ⟨_, .reg 0x49 0b0010, .stZDec, fun _ => rfl, fun _ => rfl, fun _ => Laws.EncodedLength.stZDec _⟩,
  ⟨_, .reg 0x49 0b0100, .xch, fun _ => rfl, fun _ => rfl, fun _ => Laws.EncodedLength.xch _⟩,
  ⟨_, .reg 0x49 0b0101, .las, fun _ => rfl, fun _ => rfl, fun _ => Laws.EncodedLength.las _⟩,
  ⟨_, .reg 0x49 0b0110, .lac, fun _ => rfl, fun _ => rfl, fun _ => Laws.EncodedLength.lac _⟩,
  ⟨_, .reg 0x49 0b0111, .lat, fun _ => rfl, fun _ => rfl, fun _ => Laws.EncodedLength.lat _⟩,
  ⟨_, .reg 0x49 0b1001, .stYInc, fun _ => rfl, fun _ => rfl, fun _ => Laws.EncodedLength.stYInc _⟩,
  ⟨_, .reg 0x49 0b1010, .stYDec, fun _ => rfl, fun _ => rfl, fun _ => Laws.EncodedLength.stYDec _⟩,
  ⟨_, .reg 0x49 0b1100, .stX, fun _ => rfl, fun _ => rfl, fun _ => Laws.EncodedLength.stX _⟩,
  ⟨_, .reg 0x49 0b1101, .stXInc, fun _ => rfl, fun _ => rfl, fun _ => Laws.EncodedLength.stXInc _⟩,
  ⟨_, .reg 0x49 0b1110, .stXDec, fun _ => rfl, fun _ => rfl, fun _ => Laws.EncodedLength.stXDec _⟩,
  ⟨_, .reg 0x49 0b1111, .push, fun _ => rfl, fun _ => rfl, fun _ => Laws.EncodedLength.push _⟩,
  ⟨_, .reg 0x4A 0b0000, .com, fun _ => rfl, fun _ => rfl, fun _ => Laws.EncodedLength.com _⟩,
  ⟨_, .reg 0x4A 0b0001, .neg, fun _ => rfl, fun _ => rfl, fun _ => Laws.EncodedLength.neg _⟩,
  ⟨_, .reg 0x4A 0b0010, .swap, fun _ => rfl, fun _ => rfl, fun _ => Laws.EncodedLength.swap _⟩,
  ⟨_, .reg 0x4A 0b0011, .inc, fun _ => rfl, fun _ => rfl, fun _ => Laws.EncodedLength.inc _⟩,
  ⟨_, .reg 0x4A 0b0101, .asr, fun _ => rfl, fun _ => rfl, fun _ => Laws.EncodedLength.asr _⟩,
  ⟨_, .reg 0x4A 0b0110, .lsr, fun _ => rfl, fun _ => rfl, fun _ => Laws.EncodedLength.lsr _⟩,
  ⟨_, .reg 0x4A 0b0111, .ror, fun _ => rfl, fun _ => rfl, fun _ => Laws.EncodedLength.ror _⟩,
  ⟨_, .sreg 0, .bset, fun _ => rfl, fun _ => rfl, fun _ => Laws.EncodedLength.bset _⟩,
  ⟨_, .sreg 1, .bclr, fun _ => rfl, fun _ => rfl, fun _ => Laws.EncodedLength.bclr _⟩,
  ⟨_, .word 0x9508, fun _ => .ret, fun _ => rfl, fun _ => rfl, fun _ => Laws.EncodedLength.ret⟩,
  ⟨_, .word 0x9518, fun _ => .reti, fun _ => rfl, fun _ => rfl, fun _ => Laws.EncodedLength.reti⟩,
  ⟨_, .word 0x9588, fun _ => .sleep, fun _ => rfl, fun _ => rfl, fun _ => Laws.EncodedLength.sleep⟩,
  ⟨_, .word 0x9598, fun _ => .brk, fun _ => rfl, fun _ => rfl, fun _ => Laws.EncodedLength.brk⟩,
  ⟨_, .word 0x95A8, fun _ => .wdr, fun _ => rfl, fun _ => rfl, fun _ => Laws.EncodedLength.wdr⟩,
  ⟨_, .word 0x95C8, fun _ => .lpm, fun _ => rfl, fun _ => rfl, fun _ => Laws.EncodedLength.lpm⟩,
  ⟨_, .word 0x95D8, fun _ => .elpm, fun _ => rfl, fun _ => rfl, fun _ => Laws.EncodedLength.elpm⟩,
  ⟨_, .word 0x95E8, fun _ => .spm, fun _ => rfl, fun _ => rfl, fun _ => Laws.EncodedLength.spm⟩,
  ⟨_, .word 0x95F8, fun _ => .spmZInc, fun _ => rfl, fun _ => rfl, fun _ => Laws.EncodedLength.spmZInc⟩,
  ⟨_, .word 0x9409, fun _ => .ijmp, fun _ => rfl, fun _ => rfl, fun _ => Laws.EncodedLength.ijmp⟩,
  ⟨_, .word 0x9419, fun _ => .eijmp, fun _ => rfl, fun _ => rfl, fun _ => Laws.EncodedLength.eijmp⟩,
  ⟨_, .word 0x9509, fun _ => .icall, fun _ => rfl, fun _ => rfl, fun _ => Laws.EncodedLength.icall⟩,
  ⟨_, .word 0x9519, fun _ => .eicall, fun _ => rfl, fun _ => rfl, fun _ => Laws.EncodedLength.eicall⟩,
  ⟨_, .reg 0x4A 0b1010, .dec, fun _ => rfl, fun _ => rfl, fun _ => Laws.EncodedLength.dec _⟩,
  ⟨_, .des, .des, fun _ => rfl, fun _ => rfl, fun _ => Laws.EncodedLength.des _⟩,
  ⟨_, .abs22 0, .jmp, fun _ => rfl, fun _ => rfl, fun _ => Laws.EncodedLength.jmp _⟩,
  ⟨_, .abs22 1, .call, fun _ => rfl, fun _ => rfl, fun _ => Laws.EncodedLength.call _⟩,
  ⟨_, .iw 0, fun a => .adiw a.1 a.2, fun _ => rfl, fun _ => rfl, fun _ => Laws.EncodedLength.adiw _ _⟩,
  ⟨_, .iw 1, fun a => .sbiw a.1 a.2, fun _ => rfl, fun _ => rfl, fun _ => Laws.EncodedLength.sbiw _ _⟩,
  ⟨_, .ioBit 0, fun a => .cbi a.1 a.2, fun _ => rfl, fun _ => rfl, fun _ => Laws.EncodedLength.cbi _ _⟩,
  ⟨_, .ioBit 1, fun a => .sbic a.1 a.2, fun _ => rfl, fun _ => rfl, fun _ => Laws.EncodedLength.sbic _ _⟩,
  ⟨_, .ioBit 2, fun a => .sbi a.1 a.2, fun _ => rfl, fun _ => rfl, fun _ => Laws.EncodedLength.sbi _ _⟩,
  ⟨_, .ioBit 3, fun a => .sbis a.1 a.2, fun _ => rfl, fun _ => rfl, fun _ => Laws.EncodedLength.sbis _ _⟩,
  ⟨_, .rr 0b100111, fun a => .mul a.1 a.2, fun _ => rfl, fun _ => rfl, fun _ => Laws.EncodedLength.mul _ _⟩,
  ⟨_, .io 0, fun a => .inp a.1 a.2, fun _ => rfl, fun _ => rfl, fun _ => Laws.EncodedLength.inp _ _⟩,
  ⟨_, .io 1, fun a => .out a.2 a.1, fun _ => rfl, fun _ => rfl, fun _ => Laws.EncodedLength.out _ _⟩,
  ⟨_, .relative 0xC, .rjmp, fun _ => rfl, fun _ => rfl, fun _ => Laws.EncodedLength.rjmp _⟩,
  ⟨_, .relative 0xD, .rcall, fun _ => rfl, fun _ => rfl, fun _ => Laws.EncodedLength.rcall _⟩,
  ⟨_, .imm8 0b1110, fun a => .ldi a.1 a.2, fun _ => rfl, fun _ => rfl, fun _ => Laws.EncodedLength.ldi _ _⟩,
  ⟨_, .branch 0, fun a => .brbs a.1 a.2, fun _ => rfl, fun _ => rfl, fun _ => Laws.EncodedLength.brbs _ _⟩,
  ⟨_, .branch 1, fun a => .brbc a.1 a.2, fun _ => rfl, fun _ => rfl, fun _ => Laws.EncodedLength.brbc _ _⟩,
  ⟨_, .regBit 0, fun a => .bld a.1 a.2, fun _ => rfl, fun _ => rfl, fun _ => Laws.EncodedLength.bld _ _⟩,
  ⟨_, .regBit 1, fun a => .bst a.1 a.2, fun _ => rfl, fun _ => rfl, fun _ => Laws.EncodedLength.bst _ _⟩,
  ⟨_, .regBit 2, fun a => .sbrc a.1 a.2, fun _ => rfl, fun _ => rfl, fun _ => Laws.EncodedLength.sbrc _ _⟩,
  ⟨_, .regBit 3, fun a => .sbrs a.1 a.2, fun _ => rfl, fun _ => rfl, fun _ => Laws.EncodedLength.sbrs _ _⟩]

theorem opcodeMap_eq : opcodeMap = formatRows.map FormatRow.row := rfl

/-- Words that agree under a mask and under its complement are equal. -/
theorem eq_of_mask_bits {v w m : Word} (inside : ∀ i, i < 16 → m.getLsbD i = true → v.getLsbD i = w.getLsbD i)
    (outside : ∀ i, i < 16 → m.getLsbD i = false → v.getLsbD i = w.getLsbD i) : v = w :=
  BitVec.eq_of_getLsbD_eq fun i hi => by
    cases h : m.getLsbD i
    · exact outside i hi h
    · exact inside i hi h

namespace FormatRow

variable (e : FormatRow)

/-- The row of a format selects the words with its fixed bits. -/
theorem selects_iff {w : Word} : e.row.selects w = true ↔ w &&& e.format.mask = e.format.fixed := Row.selects_iff

/-- A format that stands in the opcode map has no fixed bit outside its mask. -/
theorem fixed_and_mask (he : e ∈ formatRows) : e.format.fixed &&& e.format.mask = e.format.fixed := by
  have all : ∀ p ∈ opcodeMap, p.pattern &&& p.mask = p.pattern := by decide +kernel
  exact all e.row (opcodeMap_eq ▸ List.mem_map_of_mem he)

/-- A written word is selected by its row. -/
theorem selects_first (he : e ∈ formatRows) (a : e.operands) : e.row.selects (e.format.first a) = true := by
  rw [selects_iff, ← e.fixed_and_mask he]
  refine BitVec.eq_of_getLsbD_eq fun i hi => ?_
  rw [BitVec.getLsbD_and, BitVec.getLsbD_and]
  cases h : e.format.mask.getLsbD i
  · rw [Bool.and_false, Bool.and_false]
  · rw [e.format.fixed_bits a i hi h]

/-- The encoding of the operands read from a selected word is that word, with the second word where there is one. -/
theorem encode_read {w : Word} (h : e.row.selects w = true) (k : Word) :
    encode (e.instr (e.format.read w k)) = [w] ∨ encode (e.instr (e.format.read w k)) = [w, k] := by
  have first : e.format.first (e.format.read w k) = w := by
    refine eq_of_mask_bits (m := e.format.mask) (fun i hi hm => ?_) (e.format.operand_bits w k)
    rw [e.format.fixed_bits _ i hi hm, ← e.selects_iff.mp h, BitVec.getLsbD_and, hm, Bool.and_true]
  rw [e.encode_instr, first]
  exact (e.format.rest_read w k).imp (congrArg _) (congrArg _)

end FormatRow

/-- Every instruction stands in a row. -/
theorem exists_formatRow (i : Instr) : ∃ e ∈ formatRows, ∃ a, e.instr a = i := by
  have row (n : Nat) {e : FormatRow} (h : formatRows[n]? = some e) (a : e.operands) :
      ∃ e' ∈ formatRows, ∃ b, e'.instr b = e.instr a := ⟨e, List.mem_of_getElem? h, a, rfl⟩
  exact match i with
  | .nop => row 0 rfl () | .movw d r => row 1 rfl (d, r) | .muls d r => row 2 rfl (d, r)
  | .mulsu d r => row 3 rfl (d, r) | .fmul d r => row 4 rfl (d, r) | .fmuls d r => row 5 rfl (d, r)
  | .fmulsu d r => row 6 rfl (d, r) | .cpc d r => row 7 rfl (d, r) | .sbc d r => row 8 rfl (d, r)
  | .add d r => row 9 rfl (d, r) | .cpse d r => row 10 rfl (d, r) | .cp d r => row 11 rfl (d, r)
  | .sub d r => row 12 rfl (d, r) | .adc d r => row 13 rfl (d, r) | .and d r => row 14 rfl (d, r)
  | .eor d r => row 15 rfl (d, r) | .or d r => row 16 rfl (d, r) | .mov d r => row 17 rfl (d, r)
  | .cpi d k => row 18 rfl (d, k) | .sbci d k => row 19 rfl (d, k) | .subi d k => row 20 rfl (d, k)
  | .ori d k => row 21 rfl (d, k) | .andi d k => row 22 rfl (d, k) | .lddZ d q => row 23 rfl (d, q)
  | .lddY d q => row 24 rfl (d, q) | .stdZ q r => row 25 rfl (r, q) | .stdY q r => row 26 rfl (r, q)
  | .lds d k => row 27 rfl (d, k) | .ldZInc d => row 28 rfl d | .ldZDec d => row 29 rfl d | .lpmZ d => row 30 rfl d
  | .lpmZInc d => row 31 rfl d | .elpmZ d => row 32 rfl d | .elpmZInc d => row 33 rfl d | .ldYInc d => row 34 rfl d
  | .ldYDec d => row 35 rfl d | .ldX d => row 36 rfl d | .ldXInc d => row 37 rfl d | .ldXDec d => row 38 rfl d
  | .pop d => row 39 rfl d | .sts k r => row 40 rfl (r, k) | .stZInc r => row 41 rfl r | .stZDec r => row 42 rfl r
  | .xch d => row 43 rfl d | .las d => row 44 rfl d | .lac d => row 45 rfl d | .lat d => row 46 rfl d
  | .stYInc r => row 47 rfl r | .stYDec r => row 48 rfl r | .stX r => row 49 rfl r | .stXInc r => row 50 rfl r
  | .stXDec r => row 51 rfl r | .push r => row 52 rfl r | .com d => row 53 rfl d | .neg d => row 54 rfl d
  | .swap d => row 55 rfl d | .inc d => row 56 rfl d | .asr d => row 57 rfl d | .lsr d => row 58 rfl d
  | .ror d => row 59 rfl d | .bset s => row 60 rfl s | .bclr s => row 61 rfl s | .ret => row 62 rfl ()
  | .reti => row 63 rfl () | .sleep => row 64 rfl () | .brk => row 65 rfl () | .wdr => row 66 rfl ()
  | .lpm => row 67 rfl () | .elpm => row 68 rfl () | .spm => row 69 rfl () | .spmZInc => row 70 rfl ()
  | .ijmp => row 71 rfl () | .eijmp => row 72 rfl () | .icall => row 73 rfl () | .eicall => row 74 rfl ()
  | .dec d => row 75 rfl d | .des k => row 76 rfl k | .jmp k => row 77 rfl k | .call k => row 78 rfl k
  | .adiw d k => row 79 rfl (d, k) | .sbiw d k => row 80 rfl (d, k) | .cbi a b => row 81 rfl (a, b)
  | .sbic a b => row 82 rfl (a, b) | .sbi a b => row 83 rfl (a, b) | .sbis a b => row 84 rfl (a, b)
  | .mul d r => row 85 rfl (d, r) | .inp d a => row 86 rfl (d, a) | .out a r => row 87 rfl (r, a)
  | .rjmp k => row 88 rfl k | .rcall k => row 89 rfl k | .ldi d k => row 90 rfl (d, k)
  | .brbs s k => row 91 rfl (s, k) | .brbc s k => row 92 rfl (s, k) | .bld d b => row 93 rfl (d, b)
  | .bst d b => row 94 rfl (d, b) | .sbrc r b => row 95 rfl (r, b) | .sbrs r b => row 96 rfl (r, b)

/-- R120: every encoding is as long as its first word tells. -/
theorem encode_length (i : Instr) : (encode i).length = wordLength (firstWord i) := by
  obtain ⟨e, _, a, rfl⟩ := exists_formatRow i
  exact e.encode_length a

/-- The words of an encoding decode to its instruction. -/
theorem decodeWords_encode {i : Instr} (h : i.wellFormed = true) :
    decodeWords (firstWord i) ((encode i).tail.headD 0) = some i := by
  obtain ⟨e, he, a, rfl⟩ := exists_formatRow i
  rw [firstWord, e.encode_instr]
  exact decodeWords_eq_some_iff.mpr ⟨e.row, opcodeMap_eq ▸ List.mem_map_of_mem he, e.selects_first he a,
    congrArg e.instr (e.format.read_write a (e.wellFormed_instr a ▸ h))⟩

/-- What a decoded word was read by. -/
theorem exists_formatRow_of_decodeWords {w k : Word} {i : Instr} (h : decodeWords w k = some i) :
    ∃ e ∈ formatRows, e.row.selects w = true ∧ e.instr (e.format.read w k) = i := by
  obtain ⟨p, hp, sp, hi⟩ := decodeWords_eq_some_iff.mp h
  rw [opcodeMap_eq] at hp
  obtain ⟨e, he, rfl⟩ := List.mem_map.mp hp
  exact ⟨e, he, sp, hi⟩

theorem encode_of_decodeWords {w k : Word} {i : Instr} (h : decodeWords w k = some i) :
    encode i = [w] ∨ encode i = [w, k] := by
  obtain ⟨e, _, sp, rfl⟩ := exists_formatRow_of_decodeWords h
  exact e.encode_read sp k

theorem firstWord_of_decodeWords {w k : Word} {i : Instr} (h : decodeWords w k = some i) : firstWord i = w := by
  rcases encode_of_decodeWords h with e | e <;> rw [firstWord, e, List.headD_cons]

/-- Settles O4: the row that selects the word reads operands of its classes, which written give the word again; the first
word tells whether the second one is part of it. -/
theorem encodeOfDecode : Obligations.EncodeOfDecode := by
  intro w k i h
  constructor
  · obtain ⟨e, _, _, rfl⟩ := exists_formatRow_of_decodeWords h
    rw [e.wellFormed_instr, e.format.ok_read]
  · have length := encode_length i
    rw [firstWord_of_decodeWords h] at length
    rcases encode_of_decodeWords h with one | two
    · rw [one] at length ⊢
      rw [← length]; rfl
    · rw [two] at length ⊢
      rw [← length]; rfl

theorem isTwoWords_iff (i : Instr) : isTwoWords i = true ↔ (encode i).length = 2 := by
  cases i <;> simp [isTwoWords, encode]

theorem wordLength_eq_one_or_two (w : Word) : wordLength w = 1 ∨ wordLength w = 2 := by
  unfold wordLength
  split
  · exact .inr rfl
  · exact .inl rfl

/-- Settles O7: encoding what was decoded has the length that the first word tells. -/
theorem lengthByFirstWord : Obligations.LengthByFirstWord := by
  intro w k i h
  have length := encode_length i
  rw [firstWord_of_decodeWords h] at length
  have two : wordLength w = 2 ↔ isTwoWords i = true := by rw [isTwoWords_iff, length]
  refine ⟨two, ?_, length⟩
  rw [← Bool.not_eq_true, ← two]
  have := wordLength_eq_one_or_two w
  omega

/-! ## Program bytes (R96) -/

theorem wordOfBytes_bytesOfWord (w : Word) : wordOfBytes (w.extractLsb' 0 8) (w.extractLsb' 8 8) = w := by
  refine BitVec.eq_of_getLsbD_eq fun i hi => ?_
  simp only [wordOfBytes, BitVec.getLsbD_append, BitVec.getLsbD_extractLsb']
  interval_cases i <;> simp

theorem decode_of_one {w : Word} {i : Instr} (length : wordLength w = 1) (h : decodeWords w 0#16 = some i)
    (rest : List Byte) : decode (bytesOfWords [w] ++ rest) = .instr i rest := by
  simp [bytesOfWords, decode, wordOfBytes_bytesOfWord, length, h]

theorem decode_of_two {w k : Word} {i : Instr} (length : wordLength w = 2) (h : decodeWords w k = some i)
    (rest : List Byte) : decode (bytesOfWords [w, k] ++ rest) = .instr i rest := by
  simp [bytesOfWords, decode, wordOfBytes_bytesOfWord, length, h]

/-- Settles O3: the bytes are put together to the words of the encoding, which its row reads back. -/
theorem decodeOfEncode : Obligations.DecodeOfEncode := by
  intro i rest h
  have words := decodeWords_encode h
  have length := (encode_length i).symm
  rcases encode_of_decodeWords words with one | two
  · rw [firstWord, one] at words length
    rw [one]
    exact decode_of_one length words rest
  · rw [firstWord, two] at words length
    rw [two]
    exact decode_of_two length words rest

/-- Settles O1, by evaluating the decoder. -/
theorem sampleWordsDecode : Obligations.SampleWordsDecode := by
  unfold Obligations.SampleWordsDecode
  decide +kernel

end Sys2Proof
end

section
/-! The words that are no instruction, and that no other word is none (spec/30_encoding.md R136, R137). -/

namespace Sys2Proof

open Machine

/-- A mask and the bits of the words it selects. -/
abbrev Pattern := Word × Word

/-- The words of a pattern with bit `i` set. -/
def withBit (p : Pattern) (i : Nat) : Pattern := (p.1 ||| 1#16 <<< i, p.2 ||| 1#16 <<< i)

/-- The rows of R136 and R137 in their order; a row that asks for a bit that is not 0 is cut into one pattern for each such
bit. -/
def reservedPatterns : List Pattern :=
  [(0xFE0F, 0x9404), (0xFFEF, 0x9528), (0xFFCF, 0x9548), (0xFFFF, 0x95B8), (0xF808, 0xF808)] ++
    [0, 1, 2, 3, 4, 5, 6, 7].map (withBit (0xFF00, 0x0000)) ++ [(0xFC0F, 0x9003), (0xFC0F, 0x9008), (0xFC0F, 0x900B)] ++
    [5, 6, 7].map (withBit (0xFE0F, 0x9409)) ++ [(0xFF0F, 0x950B)]

theorem getLsbD_one_shiftLeft {i j : Nat} (hj : j < 16) : (1#16 <<< i).getLsbD j = decide (j = i) := by
  simp only [BitVec.getLsbD_shiftLeft, hj, BitVec.getLsbD_one]
  grind

theorem and_withBit {w : Word} {p : Pattern} {i : Nat} (hi : i < 16) (free : p.1.getLsbD i = false)
    (inside : p.2.getLsbD i = false) :
    w &&& (withBit p i).1 = (withBit p i).2 ↔ w &&& p.1 = p.2 ∧ w.getLsbD i = true := by
  have bits (u v : Word) : u = v ↔ ∀ j, j < 16 → u.getLsbD j = v.getLsbD j :=
    ⟨fun h _ _ => by rw [h], BitVec.eq_of_getLsbD_eq⟩
  simp only [bits, withBit, BitVec.getLsbD_and, BitVec.getLsbD_or]
  constructor
  · intro h
    have := h i hi
    refine ⟨fun j hj => ?_, ?_⟩
    · have := h j hj
      rw [getLsbD_one_shiftLeft hj] at this
      grind
    · rw [getLsbD_one_shiftLeft hi] at this
      grind
  · rintro ⟨h, set⟩ j hj
    have := h j hj
    rw [getLsbD_one_shiftLeft hj]
    grind

theorem and_ne_zero_iff {w m : Word} : w &&& m ≠ 0 ↔ ∃ i, i < 16 ∧ m.getLsbD i = true ∧ w.getLsbD i = true := by
  constructor
  · intro h
    by_contra none
    push Not at none
    refine h (BitVec.eq_of_getLsbD_eq fun i hi => ?_)
    have := none i hi
    rw [BitVec.getLsbD_and]
    simp
    grind
  · rintro ⟨i, _, hm, hw⟩ h
    have := congrArg (·.getLsbD i) h
    simp [hm, hw] at this

/-- A word of a pattern with some bit of `m` set has one of the patterns with that bit. -/
theorem and_ne_zero_iff_withBit {w m : Word} {p : Pattern} {bits : List Nat}
    (hbits : ∀ i, i < 16 → (m.getLsbD i = true ↔ i ∈ bits)) (small : ∀ i ∈ bits, i < 16)
    (free : ∀ i ∈ bits, p.1.getLsbD i = false ∧ p.2.getLsbD i = false) :
    (w &&& p.1 = p.2 ∧ w &&& m ≠ 0) ↔ ∃ q ∈ bits.map (withBit p), w &&& q.1 = q.2 := by
  rw [and_ne_zero_iff]
  simp only [List.mem_map, exists_exists_and_eq_and]
  constructor
  · rintro ⟨hp, i, hi, hm, hw⟩
    have mem := (hbits i hi).mp hm
    exact ⟨i, mem, (and_withBit hi (free i mem).1 (free i mem).2).mpr ⟨hp, hw⟩⟩
  · rintro ⟨i, mem, h⟩
    obtain ⟨hp, hw⟩ := (and_withBit (small i mem) (free i mem).1 (free i mem).2).mp h
    exact ⟨hp, i, small i mem, (hbits i (small i mem)).mpr mem, hw⟩

theorem isReserved_iff (w : Word) : isReserved w = true ↔ ∃ p ∈ reservedPatterns, w &&& p.1 = p.2 := by
  have low := and_ne_zero_iff_withBit (w := w) (m := 0x00FF) (p := (0xFF00, 0x0000))
    (bits := [0, 1, 2, 3, 4, 5, 6, 7]) (by decide) (by decide) (by decide)
  have jumps := and_ne_zero_iff_withBit (w := w) (m := 0x00E0) (p := (0xFE0F, 0x9409)) (bits := [5, 6, 7])
    (by decide) (by decide) (by decide)
  have nonzero : w &&& 0xFF00 = 0 ∧ w ≠ 0 ↔ w &&& 0xFF00 = 0 ∧ w &&& 0x00FF ≠ 0 := by
    refine and_congr_right fun high => not_congr ⟨fun h => by rw [h]; rfl, fun h => ?_⟩
    calc w = w &&& (0xFF00 ||| 0x00FF) := BitVec.and_allOnes.symm
      _ = 0 := by rw [BitVec.and_or_distrib_left, high, h]; rfl
  have one : w &&& 0xFFFF = w := BitVec.and_allOnes
  simp only [isReserved, Bool.or_eq_true, Bool.and_eq_true, beq_iff_eq, bne_iff_ne, nonzero, reservedPatterns,
    List.mem_append, or_and_right, exists_or, ← low, ← jumps, List.mem_cons, List.not_mem_nil, or_false,
    exists_eq_left, one, or_assoc]

/-- Settles O5: no row shares a word with a row of the two tables. -/
theorem reservedWordsRefused : Obligations.ReservedWordsRefused := by
  intro w k h
  obtain ⟨q, hq, select⟩ := (isReserved_iff w).mp h
  have disjoint : (opcodeMap.all fun p => reservedPatterns.all fun q =>
      q.1 &&& p.mask &&& (q.2 ^^^ p.pattern) != 0) = true := by decide +kernel
  simp only [List.all_eq_true, bne_iff_ne] at disjoint
  rw [Option.eq_none_iff_forall_ne_some]
  intro i hi
  obtain ⟨p, hp, sp, _⟩ := decodeWords_eq_some_iff.mp hi
  exact not_both_select (disjoint p hp q hq) select (Row.selects_iff.mp sp)

/-- Bit `n` of the pattern, where the mask has it, is `b`. -/
def allowsBit (n : Nat) (b : Bool) (p : Pattern) : Bool := !p.1.getLsbD n || p.2.getLsbD n == b

/-- Every word whose bits from `n` up the patterns allow has one of the patterns: one has no bit left to look at, or the
patterns that allow a 0 in the next bit cover the words with a 0 there, and those that allow a 1 the others. -/
def covers : Nat → List Pattern → Bool
  | 0, ps => !ps.isEmpty
  | n + 1, ps => ps.any (fun p => p.1.extractLsb' 0 (n + 1) == 0) ||
      (covers n (ps.filter (allowsBit n false)) && covers n (ps.filter (allowsBit n true)))

theorem covers_sound {n : Nat} {ps : List Pattern} (h : covers n ps = true) {w : Word}
    (allowed : ∀ p ∈ ps, ∀ i, n ≤ i → i < 16 → p.1.getLsbD i = true → w.getLsbD i = p.2.getLsbD i) :
    ∃ p ∈ ps, ∀ i, i < 16 → p.1.getLsbD i = true → w.getLsbD i = p.2.getLsbD i := by
  induction n generalizing ps with
  | zero =>
    obtain ⟨p, hp⟩ := List.exists_mem_of_ne_nil ps (by simpa [covers] using h)
    exact ⟨p, hp, fun i hi => allowed p hp i i.zero_le hi⟩
  | succ n ih =>
    rcases Bool.or_eq_true_iff.mp h with complete | split
    · obtain ⟨p, hp, low⟩ := List.any_eq_true.mp complete
      refine ⟨p, hp, fun i hi hm => allowed p hp i ?_ hi hm⟩
      by_contra below
      have bit := congrArg (·.getLsbD i) (beq_iff_eq.mp low)
      simp [Nat.lt_of_not_le below, hm] at bit
    · obtain ⟨zeros, ones⟩ := Bool.and_eq_true_iff.mp split
      have branch (b : Bool) (cover : covers n (ps.filter (allowsBit n b)) = true) (hb : w.getLsbD n = b) : 
          ∃ p ∈ ps, ∀ i, i < 16 → p.1.getLsbD i = true → w.getLsbD i = p.2.getLsbD i := by
        obtain ⟨p, hp, all⟩ := ih cover fun p hp i hn hi hm => by
          obtain ⟨mem, allows⟩ := List.mem_filter.mp hp
          rcases Nat.eq_or_lt_of_le hn with rfl | above
          · simp only [allowsBit, hm, Bool.not_true, Bool.false_or, beq_iff_eq] at allows
            rw [hb, allows]
          · exact allowed p mem i above hi hm
        exact ⟨p, (List.mem_filter.mp hp).1, all⟩
      cases hb : w.getLsbD n
      · exact branch false zeros hb
      · exact branch true ones hb

/-- A word is in a row of the opcode map or of the two tables. -/
theorem row_or_reserved (w : Word) :
    (∃ p ∈ opcodeMap, w &&& p.mask = p.pattern) ∨ ∃ p ∈ reservedPatterns, w &&& p.1 = p.2 := by
  let all : List Pattern := opcodeMap.map (fun p => (p.mask, p.pattern)) ++ reservedPatterns
  have cover : covers 16 all = true := by decide +kernel
  have inside : (all.all fun p => p.2 &&& p.1 == p.2) = true := by decide +kernel
  obtain ⟨p, hp, agree⟩ := covers_sound cover (w := w) fun _ _ i low high => absurd low (Nat.not_le.mpr high)
  have select : w &&& p.1 = p.2 := by
    rw [← beq_iff_eq.mp (List.all_eq_true.mp inside p hp)]
    refine BitVec.eq_of_getLsbD_eq fun i hi => ?_
    rw [BitVec.getLsbD_and, BitVec.getLsbD_and]
    cases hm : p.1.getLsbD i
    · rw [Bool.and_false, Bool.and_false]
    · rw [agree i hi hm]
  rcases List.mem_append.mp hp with row | reserved
  · obtain ⟨q, hq, rfl⟩ := List.mem_map.mp row
    exact .inl ⟨q, hq, select⟩
  · exact .inr ⟨p, reserved, select⟩

/-- Settles O6: a word outside the two tables is in a row of the opcode map. -/
theorem otherWordsDecode : Obligations.OtherWordsDecode := by
  intro w k h
  rcases row_or_reserved w with ⟨p, hp, select⟩ | reserved
  · exact ⟨_, decodeWords_eq_some_iff.mpr ⟨p, hp, Row.selects_iff.mpr select, rfl⟩⟩
  · rw [(isReserved_iff w).mpr reserved] at h
    cases h

end Sys2Proof
end

section
/-! What a step does: it executes, it takes an interrupt, or it stays (spec/60_exceptions.md R324 to R336, R345, R347). -/

namespace Sys2Proof.Machine

open Sys2Proof

/-! ## The activities of a step (R336) -/

theorem step_of_stopped {s : State} (h : s.run = .stopped) : step s = .next s := by
  simp [step, stepWith, activity, h]

theorem step_of_due {s : State} {n : Nat} (awake : s.run ≠ .stopped) (due : interruptDue s = some n) :
    step s = takeInterrupt n s := by
  simp [step, stepWith, activity, awake, due]

theorem step_of_asleep {s : State} (h : s.run = .sleeping) (due : interruptDue s = none) : step s = .next s := by
  simp [step, stepWith, activity, h, due]

theorem step_of_running {s : State} (h : s.run = .running) (due : interruptDue s = none) :
    step s = andThen (fetch s) fun i => exec i (s.setHoldoff false) := by
  simp [step, stepWith, activity, h, due]

/-- R324, R326: an interrupt is due when I is set, no hold-off stands and it is the lowest one pending. -/
theorem interruptDue_eq_some {s : State} {n : Nat} :
    interruptDue s = some n ↔ s.flag .I = true ∧ s.irqHoldoff = false ∧ (pendingVectors s).min? = some n := by
  unfold interruptDue lowestPending
  cases s.flag .I <;> cases s.irqHoldoff <;> simp

theorem interruptDue_eq_none {s : State} :
    interruptDue s = none ↔ s.flag .I = false ∨ s.irqHoldoff = true ∨ pendingVectors s = [] := by
  unfold interruptDue lowestPending
  cases s.flag .I <;> cases s.irqHoldoff <;> simp

/-! ## The fetch (R90, R134, R138) -/

theorem progWord_of_le {w : Nat} {s : State} (h : s.cfg.flashWords ≤ w) : progWord w s = .fault (.fetchOutOfRange w) :=
  if_neg (Nat.not_lt.mpr h)

theorem secondWord_of_one {w : Word} {s : State} (h : wordLength w = 1) : secondWord w s = .next 0 :=
  if_neg (by rw [h]; decide)

theorem secondWord_of_two {w : Word} {s : State} (h : wordLength w = 2) : secondWord w s = progWord (s.nextPc 1) s :=
  if_pos h

/-- A word of the tables of reserved and unassigned words has no second word. -/
theorem wordLength_of_isReserved {w : Word} (h : isReserved w = true) : wordLength w = 1 := by
  have disjoint : (reservedPatterns.all fun p => p.1 &&& 0xFC0F &&& (p.2 ^^^ 0x9000) != 0 &&
      p.1 &&& 0xFE0C &&& (p.2 ^^^ 0x940C) != 0) = true := by decide +kernel
  simp only [List.all_eq_true, Bool.and_eq_true, bne_iff_ne] at disjoint
  obtain ⟨p, hp, select⟩ := (isReserved_iff w).mp h
  obtain ⟨direct, jump⟩ := disjoint p hp
  refine if_neg ?_
  rw [Bool.or_eq_true, beq_iff_eq, beq_iff_eq]
  exact not_or.mpr ⟨not_both_select direct select, not_both_select jump select⟩

/-- Settles O8: the fetch reads the words that the hypotheses name. -/
theorem stepRunsDecodedInstruction : Obligations.StepRunsDecodedInstruction := by
  intro s i w k running due first two one decoded
  have second : secondWord w s = .next k := by
    rcases wordLength_eq_one_or_two w with h | h
    · rw [secondWord_of_one h, one h]
    · rw [secondWord_of_two h, two h]
  rw [step_of_running running due, fetch_eq_next.mpr ⟨w, k, first, second, decoded⟩]
  rfl

/-- Settles O9: the first word, the decoding of a one-word instruction, the second word of a longer one. -/
theorem stepFetchFaults : Obligations.StepFetchFaults := by
  intro s running due
  rw [step_of_running running due]
  unfold fetch
  refine ⟨fun beyond => ?_, fun w first => ⟨fun reserved => ?_, fun two beyond => ?_⟩⟩
  · rw [progWord_of_le beyond]; rfl
  · rw [first, andThen_next, secondWord_of_one (wordLength_of_isReserved reserved), andThen_next, decodeOrFault,
      reservedWordsRefused w 0 reserved]
    rfl
  · rw [first, andThen_next, secondWord_of_two two, progWord_of_le beyond]; rfl

/-- Settles O10: of all that a step can have done only the taking of an interrupt changes the run state of a sleeping
machine. -/
theorem stoppedAndSleepingMachines : Obligations.StoppedAndSleepingMachines := by
  intro s
  refine ⟨step_of_stopped, step_of_asleep, fun asleep t ht awake => ?_⟩
  rcases step_eq_next.mp ht with ⟨stopped, _⟩ | ⟨_, n, due, taken⟩ | ⟨_, _, rfl⟩ | ⟨running, _⟩
  · rw [asleep] at stopped; cases stopped
  · obtain ⟨hI, holdoff, lowest⟩ := interruptDue_eq_some.mp due
    exact ⟨n, List.min?_mem lowest, hI, holdoff, taken⟩
  · exact absurd asleep awake
  · rw [asleep] at running; cases running

/-- Settles O11, by what an interrupt due and no interrupt due mean. -/
theorem lowestPendingInterruptTaken : Obligations.LowestPendingInterruptTaken := by
  intro s awake
  refine ⟨fun n hI holdoff pending lowest => ?_, fun none running => ?_⟩
  · exact step_of_due awake (interruptDue_eq_some.mpr ⟨hI, holdoff, List.min?_eq_some_iff.mpr ⟨pending, lowest⟩⟩)
  · exact step_of_running running (interruptDue_eq_none.mpr none)

end Sys2Proof.Machine
end

section
/-! What every instruction keeps: a property of states that each single operation keeps is kept by every instruction, every
interrupt entry and every step. -/

namespace Sys2Proof.Machine

open Sys2Proof

/-- A byte of SRAM written keeps SRAM canonical and between `RAMSTART` and `RAMEND`. -/
theorem sramOk_write {s : State} {a : Nat} (h : place s.cfg a = .sram) (v : Byte) (ok : sramOk s) :
    sramOk (s.setSram (Memory.write Memory.sramByte s.sram a v)) := by
  refine ⟨Memory.write_wf _ _ _ _ ok.1, fun c hc => ?_⟩
  rcases Memory.mem_write _ _ _ _ hc with listed | ⟨rfl, _⟩
  · exact ok.2 c listed
  · exact place_sram h

/-- A property that the single operations of the meanings keep. I is set only by `writeSreg` (RETI, which also sets it, is no
single operation); a segment register is written only where it is present, program memory only by the SPM of a platform. -/
structure Stable (P : State → Prop) : Prop where
  regs {s : State} (v : Vector Byte 32) : P s → P { s with regs := v }
  pc {s : State} (n : Nat) : P s → P (s.setPc n)
  sreg {s : State} {v : Byte} : (getFlag v .I = true → s.flag .I = true) → P s → P (s.setSreg v)
  writeSreg {s : State} (v : Byte) : P s → P (s.writeSreg v)
  sp {s : State} (n : Nat) : P s → P (s.setSp n)
  rampx {s : State} (v : Byte) : s.cfg.hasRampX = true → P s → P (s.setRampx v)
  rampy {s : State} (v : Byte) : s.cfg.hasRampY = true → P s → P (s.setRampy v)
  rampz {s : State} (v : Byte) : s.cfg.hasRampZ = true → P s → P (s.setRampz v)
  rampd {s : State} (v : Byte) : s.cfg.hasRampD = true → P s → P (s.setRampd v)
  eind {s : State} (v : Byte) : s.cfg.hasEind = true → P s → P (s.setEind v)
  sram {s : State} {m : Memory} : (sramOk s → sramOk (s.setSram m)) → P s → P (s.setSram m)
  io {s : State} {m : Memory} : (ioOk s → ioOk (s.setIo m)) → P s → P (s.setIo m)
  flash {s : State} {m : Memory} : s.cfg.spmEffect = .platform → (flashOk s → flashOk (s.setFlash m)) → P s →
    P (s.setFlash m)
  platform {s : State} (p : Nat) : P s → P (s.setPlatform p)
  holdoff {s : State} : P s → P (s.setHoldoff (s.irqHoldoff || s.cfg.isXmega))
  run {s : State} (r : RunState) : P s → P (s.setRun r)

namespace Stable

variable {P : State → Prop} (K : Stable P) {s t : State}

include K

/-! ## Registers and pointers -/

theorem setReg (hs : P s) (r : Reg) (v : Byte) : P (s.setReg r v) := K.regs _ hs

theorem setPair (hs : P s) (r : Reg) (w : Word) : P (s.setPair r w) := K.setReg (K.setReg hs _ _) _ _

theorem advance (hs : P s) (n : Nat) : P (s.advance n) := K.pc _ hs

theorem setPtr (hs : P s) (p : Ptr) (a : Nat) : P (setPtr p a s) := by
  have pair := K.setPair hs p.lo (BitVec.ofNat 16 a)
  unfold Machine.setPtr
  split
  case isFalse => exact pair
  case isTrue ext =>
    cases p
    case x => exact K.rampx _ ext pair
    case y => exact K.rampy _ ext pair
    case z => exact K.rampz _ (Bool.and_eq_true_iff.mp ext).1 pair

/-! ## Memory and the stack -/

theorem ioRead (hs : P s) (a : BitVec 6) : P (ioRead a s).2 := by
  obtain ⟨p, e, _⟩ := ioRead_state a s
  rw [e]; exact K.platform p hs

theorem memRead {a : Nat} {x : Byte × State} (h : memRead a s = .next x) (hs : P s) : P x.2 := by
  obtain ⟨p, e, _⟩ := memRead_state (v := x.1) (t := x.2) h
  rw [e]; exact K.platform p hs

theorem deviceWrite (hs : P s) (a : Nat) (v : Byte) : P (deviceWrite a v s) := by
  rcases deviceWrite_cases a v s with ⟨_, e⟩ | ⟨_, p, e⟩ <;> rw [e]
  · exact K.io (Memory.write_wf _ _ _ _) hs
  · exact K.platform p hs

theorem cpuWrite {a : BitVec 6} {v : Byte} (h : cpuWrite s a v = some t) (hs : P s) : P t := by
  rcases cpuWrite_cases h with ⟨_, rfl⟩ | ⟨_, rfl⟩ | ⟨_, rfl⟩ | ⟨_, present, rfl⟩ | ⟨_, present, rfl⟩ |
    ⟨_, present, rfl⟩ | ⟨_, present, rfl⟩ | ⟨_, present, rfl⟩
  · exact K.writeSreg v hs
  · exact K.sp _ hs
  · exact K.holdoff (K.sp _ hs)
  · exact K.eind v present hs
  · exact K.rampz v present hs
  · exact K.rampy v present hs
  · exact K.rampx v present hs
  · exact K.rampd v present hs

theorem ioWrite (hs : P s) (a : BitVec 6) (v : Byte) : P (ioWrite a v s) := by
  unfold Machine.ioWrite
  split
  next t h => exact K.cpuWrite h hs
  next => exact K.deviceWrite hs _ _

theorem memWrite {a : Nat} {v : Byte} (h : memWrite a v s = .next t) (hs : P s) : P t := by
  rcases memWrite_cases h with ⟨r, _, rfl⟩ | ⟨p, u, _, hu, rfl⟩ | ⟨p, _, _, rfl⟩ | ⟨_, rfl⟩ | ⟨inSram, rfl⟩
  · exact K.setReg hs _ _
  · exact K.cpuWrite hu hs
  · exact K.deviceWrite hs _ _
  · exact K.deviceWrite hs _ _
  · exact K.sram (sramOk_write inSram v) hs

theorem push {v : Byte} (h : push v s = .next t) (hs : P s) : P t := by
  obtain ⟨u, stored, rfl⟩ := push_eq_next.mp h
  exact K.sp _ (K.memWrite stored hs)

theorem pop {x : Byte × State} (h : pop s = .next x) (hs : P s) : P x.2 := K.memRead h (K.sp _ hs)

theorem pushPc {r : BitVec 22} (h : pushPc r s = .next t) (hs : P s) : P t := by
  obtain ⟨s1, s2, h1, h2, h3⟩ := pushPc_eq_next.mp h
  have hs2 := K.push h2 (K.push h1 hs)
  split at h3
  · exact K.push h3 hs2
  · cases h3; exact hs2

theorem popPc {n : Nat} (h : popPc s = .next (n, t)) (hs : P s) : P t := by
  obtain ⟨x2, x1, x0, h2, h1, h0, _, rfl⟩ := popPc_eq_next.mp h
  refine K.pop h0 (K.pop h1 ?_)
  unfold popPcTop at h2
  split at h2
  · exact K.pop h2 hs
  · cases h2; exact hs

/-! ## The forms of the meanings -/

theorem finishAlu (hs : P s) {d : Reg} {v sreg : Byte} (hI : getFlag sreg .I = s.flag .I) : P (finishAlu d v sreg s) :=
  K.advance (K.sreg (fun h => hI ▸ h) (K.setReg hs d v)) 1

theorem finishCompare (hs : P s) {sreg : Byte} (hI : getFlag sreg .I = s.flag .I) : P (finishCompare sreg s) :=
  K.advance (K.sreg (fun h => hI ▸ h) hs) 1

/-- A 16-bit result in a pair, with flags: the multiplications, ADIW and SBIW. -/
theorem finishPair (hs : P s) {d : Reg} {w : Word} {sreg : Byte} (hI : getFlag sreg .I = s.flag .I) :
    P (((s.setPair d w).setSreg sreg).advance 1) :=
  K.advance (K.sreg (fun h => hI ▸ h) (K.setPair hs d w)) 1

theorem loadFrom {a : Nat} {d : Reg} {after : State → State} {len : Nat} (h : loadFrom a d after len s = .next t)
    (hafter : ∀ u, P u → P (after u)) (hs : P s) : P t := by
  obtain ⟨v, u, read, rfl⟩ := loadFrom_eq_next.mp h
  exact K.advance (hafter _ (K.setReg (K.memRead read hs) d v)) len

theorem storeTo {a : Nat} {v : Byte} {after : State → State} {len : Nat} (h : storeTo a v after len s = .next t)
    (hafter : ∀ u, P u → P (after u)) (hs : P s) : P t := by
  obtain ⟨u, stored, rfl⟩ := storeTo_eq_next.mp h
  exact K.advance (hafter _ (K.memWrite stored hs)) len

theorem loadProgram {b : Nat} {d : Reg} {after : State → State} (h : loadProgram b d after s = .next t)
    (hafter : ∀ v, P (s.setReg d v) → P (after (s.setReg d v))) (hs : P s) : P t := by
  obtain ⟨_, rfl⟩ := loadProgram_eq_next.mp h
  exact K.advance (hafter _ (K.setReg hs d _)) 1

theorem readModifyWrite {f : Byte → Byte → Byte} {d : Reg} (h : readModifyWrite f d s = .next t) (hs : P s) : P t := by
  obtain ⟨v, u, w, read, stored, rfl⟩ := readModifyWrite_eq_next.mp h
  exact K.advance (K.setReg (K.memWrite stored (K.memRead read hs)) d v) 1

theorem skipIf {cond : Bool} (h : skipIf cond s = .next t) (hs : P s) : P t := by
  rcases skipIf_eq_next.mp h with ⟨_, rfl⟩ | ⟨_, _, _, rfl⟩ <;> exact K.advance hs _

theorem callTo {target len : Nat} (h : callTo target len s = .next t) (hs : P s) : P t := by
  obtain ⟨u, pushed, rfl⟩ := callTo_eq_next.mp h
  exact K.pc _ (K.pushPc pushed hs)

theorem applySpm (h : s.cfg.spmEffect = .platform) (hs : P s) : P (applySpm s) := by
  refine K.platform _ (K.io (Memory.writeAll_wf _ _ _) (K.flash h (fun ok => ?_) hs))
  refine ⟨Memory.writeAll_wf _ _ _ ok.1, fun c hc => ?_⟩
  rcases Memory.mem_writeAll _ _ _ hc with listed | ⟨e, he, same⟩
  · exact ok.2 c listed
  · rw [← same]
    exact of_decide_eq_true (List.mem_filter.mp he).2

/-! ## Every instruction, every interrupt entry -/

/-- Every instruction but RETI keeps a stable property; RETI does where what it does beside the pop keeps it. -/
theorem exec {i : Instr} (h : exec i s = .next t) (reti : i = .reti → ∀ u, P u → P (finishReti u)) (hs : P s) : P t := by
  cases i with
  | nop => cases h; exact K.advance hs 1
  | add d r | adc d r | sub d r | subi d k | sbc d r | sbci d k | neg d =>
    obtain ⟨_, ⟨⟩⟩ := requires_eq_next.mp h; exact K.finishAlu hs (getFlag_putHSVNZC_I ..)
  | and d r | andi d k | or d r | ori d k | eor d r | inc d | dec d =>
    obtain ⟨_, ⟨⟩⟩ := requires_eq_next.mp h; exact K.finishAlu hs (getFlag_putSVNZ_I ..)
  | lsr d | ror d | asr d => obtain ⟨_, ⟨⟩⟩ := requires_eq_next.mp h; exact K.finishAlu hs (getFlag_putSVNZC_I ..)
  | com d =>
    obtain ⟨_, ⟨⟩⟩ := requires_eq_next.mp h
    exact K.finishAlu hs ((getFlag_putFlag ..).trans (getFlag_putSVNZ_I ..))
  | cp d r | cpc d r | cpi d k =>
    obtain ⟨_, ⟨⟩⟩ := requires_eq_next.mp h; exact K.finishCompare hs (getFlag_putHSVNZC_I ..)
  | adiw d k | sbiw d k => obtain ⟨_, ⟨⟩⟩ := requires_eq_next.mp h; exact K.finishPair hs (getFlag_putSVNZC_I ..)
  | mul d r | muls d r | mulsu d r | fmul d r | fmuls d r | fmulsu d r =>
    obtain ⟨_, ⟨⟩⟩ := requires_eq_next.mp h; exact K.finishPair hs (getFlag_putZC_I ..)
  | swap d | mov d r | ldi d k | bld d b =>
    obtain ⟨_, ⟨⟩⟩ := requires_eq_next.mp h; exact K.advance (K.setReg hs _ _) 1
  | movw d r => obtain ⟨_, ⟨⟩⟩ := requires_eq_next.mp h; exact K.advance (K.setPair hs _ _) 1
  | inp d a => obtain ⟨_, ⟨⟩⟩ := requires_eq_next.mp h; exact K.advance (K.setReg (K.ioRead hs a) _ _) 1
  | out a r => obtain ⟨_, ⟨⟩⟩ := requires_eq_next.mp h; exact K.advance (K.ioWrite hs a _) 1
  | sbi a b | cbi a b => cases h; exact K.advance (K.ioWrite (K.ioRead hs _) _ _) 1
  | bset b => cases h; exact K.advance (K.writeSreg _ hs) 1
  | bclr b =>
    cases h
    refine K.advance (K.sreg (fun hI => ?_) hs) 1
    rw [getFlag, getLsbD_putBit _ _ (Flag.bit_lt _)] at hI
    split at hI
    · cases hI
    · exact hI
  | bst d b =>
    obtain ⟨_, ⟨⟩⟩ := requires_eq_next.mp h
    exact K.advance (K.sreg (fun hI => by rwa [getFlag_putFlag, if_neg (by decide)] at hI) hs) 1
  | brk =>
    obtain ⟨_, h⟩ := requires_eq_next.mp h
    split at h <;> cases h
    · exact K.run _ hs
    · exact K.advance hs 1
  | sleep =>
    cases h
    split
    · exact K.run _ (K.advance hs 1)
    · exact K.advance hs 1
  | wdr =>
    cases h
    refine K.advance ?_ 1
    unfold deviceWdr
    split
    · exact hs
    · exact K.platform _ hs
  | lds d k | ldX d | lddY d q | lddZ d q =>
    obtain ⟨_, h⟩ := requires_eq_next.mp h; exact K.loadFrom h (fun _ hu => hu) hs
  | ldXInc d | ldXDec d | ldYInc d | ldYDec d | ldZInc d | ldZDec d =>
    obtain ⟨_, h⟩ := requires_eq_next.mp h
    obtain ⟨_, _, h⟩ := requiresDisjoint_eq_next.mp h
    exact K.loadFrom h (fun _ hu => K.setPtr hu _ _) hs
  | sts k r | stX r | stdY q r | stdZ q r =>
    obtain ⟨_, h⟩ := requires_eq_next.mp h; exact K.storeTo h (fun _ hu => hu) hs
  | stXInc r | stXDec r | stYInc r | stYDec r | stZInc r | stZDec r =>
    obtain ⟨_, h⟩ := requires_eq_next.mp h
    obtain ⟨_, _, h⟩ := requiresDisjoint_eq_next.mp h
    exact K.storeTo h (fun _ hu => K.setPtr hu _ _) hs
  | push r =>
    obtain ⟨_, h⟩ := requires_eq_next.mp h
    obtain ⟨u, pushed, ⟨⟩⟩ := andThen_eq_next.mp h
    exact K.advance (K.push pushed hs) 1
  | pop d =>
    obtain ⟨_, h⟩ := requires_eq_next.mp h
    obtain ⟨x, popped, ⟨⟩⟩ := andThen_eq_next.mp h
    exact K.advance (K.setReg (K.pop popped hs) _ _) 1
  | lpm | lpmZ d | elpm | elpmZ d =>
    obtain ⟨_, h⟩ := requires_eq_next.mp h; exact K.loadProgram h (fun _ hu => hu) hs
  | lpmZInc d =>
    obtain ⟨_, h⟩ := requires_eq_next.mp h
    obtain ⟨_, _, h⟩ := requiresDisjoint_eq_next.mp h
    exact K.loadProgram h (fun _ hu => K.setPair hu _ _) hs
  | elpmZInc d =>
    obtain ⟨impl, h⟩ := requires_eq_next.mp h
    obtain ⟨_, _, h⟩ := requiresDisjoint_eq_next.mp h
    have hasRampZ : s.cfg.hasRampZ = true :=
      (Bool.and_eq_true_iff.mp (Bool.and_eq_true_iff.mp impl).1).1
    exact K.loadProgram h (fun _ hu => K.rampz _ hasRampZ (K.setPair hu _ _)) hs
  | spm =>
    obtain ⟨_, h⟩ := requires_eq_next.mp h
    unfold withSpmEffect at h
    split at h <;> cases h
    next e => exact K.advance (K.applySpm e hs) 1
  | spmZInc =>
    obtain ⟨_, h⟩ := requires_eq_next.mp h
    unfold withSpmEffect at h
    split at h <;> cases h
    next e =>
    refine K.advance ?_ 1
    have pair := K.setPair (K.applySpm e hs) 30 (s.pair 30 + 2)
    unfold bumpZ
    dsimp only
    split
    next carries => exact K.rampz _ (Bool.and_eq_true_iff.mp carries).1 pair
    next => exact pair
  | rjmp k => cases h; exact K.pc _ hs
  | ijmp | eijmp | jmp k => obtain ⟨_, ⟨⟩⟩ := requires_eq_next.mp h; exact K.pc _ hs
  | brbs b k | brbc b k =>
    cases h
    unfold branchIf
    split
    · exact K.pc _ hs
    · exact K.advance hs 1
  | cpse d r | sbrc r b | sbrs r b => obtain ⟨_, h⟩ := requires_eq_next.mp h; exact K.skipIf h hs
  | sbic a b | sbis a b => exact K.skipIf h (K.ioRead hs _)
  | rcall k | icall | eicall | call k => obtain ⟨_, h⟩ := requires_eq_next.mp h; exact K.callTo h hs
  | ret =>
    obtain ⟨_, h⟩ := requires_eq_next.mp h
    obtain ⟨x, popped, ⟨⟩⟩ := andThen_eq_next.mp h
    exact K.pc _ (K.popPc popped hs)
  | reti =>
    obtain ⟨_, h⟩ := requires_eq_next.mp h
    obtain ⟨n, u, popped, rfl⟩ := returnFromInterrupt_eq_next.mp h
    exact reti rfl _ (K.pc _ (K.popPc popped hs))
  | xch d | las d | lac d | lat d => obtain ⟨_, h⟩ := requires_eq_next.mp h; exact K.readModifyWrite h hs
  | des k => obtain ⟨_, ⟨⟩⟩ := requires_eq_next.mp h; exact K.advance (K.regs _ hs) 1

theorem takeInterrupt {n : Nat} (h : takeInterrupt n s = .next t)
    (served : ∀ u, P u → P (u.setPending (u.irqPending.filter (· != n)))) (hs : P s) : P t := by
  obtain ⟨_, u, v, pushed, rfl, rfl⟩ := takeInterrupt_eq_next.mp h
  have cleared : P (clearIOnEntry u) := by
    unfold clearIOnEntry
    split
    · exact K.pushPc pushed hs
    · exact K.sreg (fun hI => by rw [getFlag_putFlag, if_pos rfl] at hI; cases hI) (K.pushPc pushed hs)
  refine K.pc _ (K.run _ ?_)
  unfold acknowledge
  split
  · split
    · exact served _ cleared
    · exact cleared
  · exact K.platform _ cleared

/-- A step keeps a stable property that an interrupt entry, RETI and the clearing of the hold-off keep. -/
theorem step (h : step s = .next t) (served : ∀ u n, P u → P (u.setPending (u.irqPending.filter (· != n))))
    (reti : ∀ u, P u → P (finishReti u)) (released : P (s.setHoldoff false)) (hs : P s) : P t := by
  rcases step_eq_next.mp h with ⟨_, rfl⟩ | ⟨_, n, _, taken⟩ | ⟨_, _, rfl⟩ | ⟨_, _, i, _, executed⟩
  · exact hs
  · exact K.takeInterrupt taken (served · n) hs
  · exact hs
  · exact K.exec executed (fun _ => reti) released

end Stable

/-- R295: what RETI does beside the pop is one of two writes and the arming of the hold-off. -/
theorem finishReti_cases (s : State) :
    (∃ v, finishReti s = (s.setSreg v).setHoldoff true) ∨ ∃ p, finishReti s = (s.setPlatform p).setHoldoff true := by
  unfold finishReti irqReti
  dsimp only
  split
  · split
    · exact .inr ⟨s.platform, rfl⟩
    · exact .inr ⟨_, rfl⟩
  · exact .inl ⟨_, rfl⟩

/-! ## The invariant -/

theorem invariant_stable : Stable Invariant where
  regs _ h := h
  pc n h := h.setPc n
  sreg _ h := h.setSreg _
  writeSreg v h := h.writeSreg v
  sp n h := h.setSp n
  rampx v present h := h.setRampx v present
  rampy v present h := h.setRampy v present
  rampz v present h := h.setRampz v present
  rampd v present h := h.setRampd v present
  eind v present h := h.setEind v present
  sram ok h := by
    obtain ⟨hpc, hsp, hseg, habs, hsram, hio, hflash⟩ := h
    exact ⟨hpc, hsp, hseg, habs, ok hsram, hio, hflash⟩
  io ok h := by
    obtain ⟨hpc, hsp, hseg, habs, hsram, hio, hflash⟩ := h
    exact ⟨hpc, hsp, hseg, habs, hsram, ok hio, hflash⟩
  flash _ ok h := by
    obtain ⟨hpc, hsp, hseg, habs, hsram, hio, hflash⟩ := h
    exact ⟨hpc, hsp, hseg, habs, hsram, hio, ok hflash⟩
  platform p h := h.setPlatform p
  holdoff h := h.setHoldoff _
  run r h := h.setRun r

theorem Invariant.finishReti {s : State} (h : Invariant s) : Invariant (finishReti s) := by
  rcases finishReti_cases s with ⟨v, e⟩ | ⟨p, e⟩ <;> rw [e] <;> exact h

/-- Settles O19: the invariant is stable, and no request list or hold-off takes part in it. -/
theorem stepKeepsInvariant : Obligations.StepKeepsInvariant := fun _ _ h stepped =>
  invariant_stable.step stepped (fun _ _ hu => hu.setPending _) (fun _ => Invariant.finishReti) (h.setHoldoff false) h

/-! ## The configuration, the requests, program memory -/

/-- What only an interrupt entry or the SPM of a platform writes: the configuration `c`, the requests, the program `m`. -/
theorem fixed_stable (c : Config) (pending : List Nat → Prop) (m : Memory) :
    Stable fun u => u.cfg = c ∧ pending u.irqPending ∧ (c.spmEffect = .reference → u.flash = m) where
  regs _ h := h
  pc _ h := h
  sreg _ h := h
  writeSreg _ h := h
  sp _ h := h
  rampx _ _ h := h
  rampy _ _ h := h
  rampz _ _ h := h
  rampd _ _ h := h
  eind _ _ h := h
  sram _ h := h
  io _ h := h
  flash platform _ h := ⟨h.1, h.2.1, fun refuse => by rw [h.1, refuse] at platform; cases platform⟩
  platform _ h := h
  holdoff h := h
  run _ h := h

theorem fixed_finishReti {c : Config} {pending : List Nat → Prop} {m : Memory} (u : State)
    (h : u.cfg = c ∧ pending u.irqPending ∧ (c.spmEffect = .reference → u.flash = m)) :
    (finishReti u).cfg = c ∧ pending (finishReti u).irqPending ∧ (c.spmEffect = .reference → (finishReti u).flash = m) := by
  rcases finishReti_cases u with ⟨v, e⟩ | ⟨p, e⟩ <;> rw [e] <;> exact h

/-- Every step keeps the configuration and, with SPM refused, program memory; an interrupt entry takes requests away. -/
theorem step_fixed {s t : State} (h : step s = .next t) :
    t.cfg = s.cfg ∧ (∀ n ∈ t.irqPending, n ∈ s.irqPending) ∧ (s.cfg.spmEffect = .reference → t.flash = s.flash) :=
  (fixed_stable s.cfg (fun l => ∀ n ∈ l, n ∈ s.irqPending) s.flash).step h
    (fun _ _ ⟨cfg, fewer, flash⟩ => ⟨cfg, fun m hm => fewer m (List.mem_of_mem_filter hm), flash⟩)
    (fun u hu => fixed_finishReti (pending := fun l => ∀ n ∈ l, n ∈ s.irqPending) u hu)
    ⟨rfl, fun _ hn => hn, fun _ => rfl⟩ ⟨rfl, fun _ hn => hn, fun _ => rfl⟩

/-- Settles O20: without an interrupt entry the requests stay as they are. -/
theorem stepKeepsConfiguration : Obligations.StepKeepsConfiguration := by
  intro s t h
  obtain ⟨cfg, fewer, _⟩ := step_fixed h
  refine ⟨cfg, fewer, fun due => ?_⟩
  rcases step_eq_next.mp h with ⟨_, rfl⟩ | ⟨_, n, due', _⟩ | ⟨_, _, rfl⟩ | ⟨_, _, i, _, executed⟩
  · rfl
  · rw [due] at due'; cases due'
  · rfl
  · obtain ⟨_, same, _⟩ := (fixed_stable s.cfg (· = s.irqPending) s.flash).exec executed
      (fun _ u hu => fixed_finishReti (pending := (· = s.irqPending)) u hu) ⟨rfl, rfl, fun _ => rfl⟩
    exact same

/-- Settles O21, by what every step keeps. -/
theorem programMemoryFixedWithoutSpm : Obligations.ProgramMemoryFixedWithoutSpm := fun _ _ refuse h =>
  (step_fixed h).2.2 refuse

/-! ## Reset (R62, R360) -/

theorem resetOf_invariant {c : Config} {flash : Memory} (wf : Memory.wf Memory.flashByte flash)
    (fits : ∀ x ∈ flash, x.1 < 2 * c.flashWords) : Invariant (State.resetOf c flash) :=
  ⟨toNat_ofNat_mod_lt 22 c.resetVector c.pcBits, toNat_ofNat_mod_lt 16 c.spReset c.spBits,
    ⟨Nat.two_pow_pos _, Nat.two_pow_pos _, Nat.two_pow_pos _, Nat.two_pow_pos _, Nat.two_pow_pos _⟩,
    ⟨fun _ => rfl, fun _ => rfl, fun _ => rfl, fun _ => rfl, fun _ => rfl⟩,
    ⟨Memory.nil_wf _, fun _ h => absurd h List.not_mem_nil⟩, Memory.nil_wf _, ⟨wf, fits⟩⟩

/-- Settles O18: the memories after reset are empty or the image, and every register is reduced to its width. -/
theorem resetMeetsInvariant : Obligations.ResetMeetsInvariant :=
  ⟨resetOf_invariant (Memory.nil_wf _) fun _ h => absurd h List.not_mem_nil, fun _ _ => resetOf_invariant⟩

/-- Settles O17, by evaluation. -/
theorem resetState : Obligations.ResetState :=
  ⟨rfl, rfl, rfl, rfl, rfl, rfl, rfl, rfl, rfl, rfl, rfl, by decide, fun _ => rfl⟩

/-- Settles O22, by evaluation. -/
theorem warmReset : Obligations.WarmReset := fun _ =>
  ⟨rfl, rfl, rfl, rfl, rfl, rfl, rfl, rfl, rfl, rfl, fun _ => rfl, fun _ => rfl, fun _ => rfl⟩

end Sys2Proof.Machine
end

section
/-! The data space byte by byte (spec/20_memory.md R80 to R89, spec/10_state.md R46 to R49). -/

namespace Sys2Proof.Machine

open Sys2Proof

/-! ## A byte of the data space, by its place -/

theorem memRead_register {s : State} {a : Nat} {r : Reg} (h : place s.cfg a = .register r) :
    memRead a s = .next (s.reg r, s) := by
  simp only [memRead, h]

theorem memRead_io {s : State} {a : Nat} {p : BitVec 6} (h : place s.cfg a = .io p) :
    memRead a s = .next (ioRead p s) := by
  simp only [memRead, h]

theorem memRead_device {s : State} {a : Nat} (h : place s.cfg a = .device) : memRead a s = .next (deviceRead a s) := by
  simp only [memRead, h]

theorem memRead_sram {s : State} {a : Nat} (h : place s.cfg a = .sram) : memRead a s = .next (s.sramAt a, s) := by
  simp only [memRead, h, State.sramAt]

theorem memRead_nothing {s : State} {a : Nat} (h : place s.cfg a = .nothing) :
    memRead a s = .fault (.dataOutOfRange a) := by
  simp only [memRead, h]

theorem memWrite_register {s : State} {a : Nat} {r : Reg} (v : Byte) (h : place s.cfg a = .register r) :
    memWrite a v s = .next (s.setReg r v) := by
  simp only [memWrite, h]

theorem memWrite_of_io {s : State} {a : Nat} {p : BitVec 6} (v : Byte) (h : place s.cfg a = .io p) :
    memWrite a v s = .next (ioWrite p v s) := by
  simp only [memWrite, h]

theorem memWrite_device {s : State} {a : Nat} (v : Byte) (h : place s.cfg a = .device) :
    memWrite a v s = .next (deviceWrite a v s) := by
  simp only [memWrite, h]

theorem memWrite_sram {s : State} {a : Nat} (v : Byte) (h : place s.cfg a = .sram) :
    memWrite a v s = .next (s.setSram (Memory.write Memory.sramByte s.sram a v)) := by
  simp only [memWrite, h]

theorem memWrite_nothing {s : State} {a : Nat} (v : Byte) (h : place s.cfg a = .nothing) :
    memWrite a v s = .fault (.dataOutOfRange a) := by
  simp only [memWrite, h]

theorem place_of_isSram {c : Config} {a : Nat} (h : isSram c a = true) : place c a = .sram := beq_iff_eq.mp h

theorem mapped_iff {c : Config} {a : Nat} : mapped c a = true ↔ place c a ≠ .nothing := bne_iff_ne

theorem dataByte_of_memRead {s t : State} {a : Nat} {v : Byte} (h : memRead a s = .next (v, t)) :
    s.dataByte a = some v := by
  rw [State.dataByte, h]

theorem dataByte_register {s : State} {a : Nat} {r : Reg} (h : place s.cfg a = .register r) :
    s.dataByte a = some (s.reg r) := dataByte_of_memRead (memRead_register h)

theorem dataByte_io {s : State} {a : Nat} {p : BitVec 6} (h : place s.cfg a = .io p) :
    s.dataByte a = some (ioRead p s).1 := dataByte_of_memRead (memRead_io h)

theorem dataByte_device {s : State} {a : Nat} (h : place s.cfg a = .device) :
    s.dataByte a = some (deviceRead a s).1 := dataByte_of_memRead (memRead_device h)

theorem dataByte_sram {s : State} {a : Nat} (h : place s.cfg a = .sram) : s.dataByte a = some (s.sramAt a) :=
  dataByte_of_memRead (memRead_sram h)

theorem dataByte_nothing {s : State} {a : Nat} (h : place s.cfg a = .nothing) : s.dataByte a = none := by
  rw [State.dataByte, memRead_nothing h]

theorem sramAt_write_same {s : State} (ok : sramOk s) (a : Nat) (v : Byte) :
    (s.setSram (Memory.write Memory.sramByte s.sram a v)).sramAt a = v := Memory.read_write_same _ _ _ _ ok.1

theorem sramAt_write_other (s : State) {a b : Nat} (v : Byte) (h : b ≠ a) :
    (s.setSram (Memory.write Memory.sramByte s.sram a v)).sramAt b = s.sramAt b := Memory.read_write_other _ _ _ h

theorem deviceRead_setSram_fst (s : State) (m : Memory) (a : Nat) :
    (deviceRead a (s.setSram m)).1 = (deviceRead a s).1 := by
  unfold deviceRead
  rw [State.setSram_cfg]
  split <;> rfl

theorem ioRead_setSram_fst (s : State) (m : Memory) (p : BitVec 6) : (ioRead p (s.setSram m)).1 = (ioRead p s).1 := by
  have same : cpuRead (s.setSram m) p = cpuRead s p := rfl
  unfold ioRead
  rw [same]
  split
  · rfl
  · exact deviceRead_setSram_fst s m _

/-- Outside SRAM a byte of the data space does not depend on SRAM. -/
theorem dataByte_setSram (s : State) (m : Memory) {a : Nat}
    (h : place s.cfg a = .sram → (s.setSram m).sramAt a = s.sramAt a) :
    (s.setSram m).dataByte a = s.dataByte a := by
  have hp : place (s.setSram m).cfg a = place s.cfg a := rfl
  cases e : place s.cfg a <;> rw [e] at hp
  case register r => rw [dataByte_register hp, dataByte_register e]; rfl
  case io p => rw [dataByte_io hp, dataByte_io e, ioRead_setSram_fst]
  case device => rw [dataByte_device hp, dataByte_device e, deviceRead_setSram_fst]
  case sram => rw [dataByte_sram hp, dataByte_sram e, h e]
  case nothing => rw [dataByte_nothing hp, dataByte_nothing e]

/-- Settles O23: the address is SRAM, so the byte is listed there, and no other byte depends on it. -/
theorem sramReadAfterWrite : Obligations.SramReadAfterWrite := by
  intro s a v ok isSram
  have inSram := place_of_isSram isSram
  have read := memRead_sram (s := s.setSram (Memory.write Memory.sramByte s.sram a v)) inSram
  rw [sramAt_write_same ok] at read
  exact ⟨_, memWrite_sram v inSram, dataByte_of_memRead read,
    fun b other => dataByte_setSram s _ fun _ => sramAt_write_other s v other, read⟩

/-! ## The maps (R80 to R83, R89) -/

/-- The register file at the bottom of the data space. -/
theorem place_register {c : Config} (h : c.memoryMap = .atmega ∨ c.memoryMap = .avr1) (r : Reg) :
    place c r.toNat = .register r := by
  have small : r.toNat ≤ 0x1F := Nat.le_of_lt_succ r.isLt
  rcases h with h | h <;> simp [place, h, small]

/-- The I/O registers above the register file. -/
theorem place_io_above {c : Config} (h : c.memoryMap = .atmega ∨ c.memoryMap = .avr1) (a : BitVec 6) :
    place c (a.toNat + 0x20) = .io a := by
  have low : ¬ a.toNat + 0x20 ≤ 0x1F := by omega
  have high : a.toNat + 0x20 ≤ 0x5F := Nat.add_le_add_right (Nat.le_of_lt_succ a.isLt) _
  rcases h with h | h <;> simp only [place, h, if_neg low, if_pos high, Nat.add_sub_cancel, BitVec.ofNat_toNat] <;> simp

theorem place_avr1 {c : Config} (h : c.memoryMap = .avr1) {n : Nat} (hn : 0x5F < n) : place c n = .nothing := by
  have low : ¬ n ≤ 0x1F := by omega
  have high : ¬ n ≤ 0x5F := by omega
  simp only [place, h, if_neg low, if_neg high]

/-- The I/O registers at the bottom of the data space. -/
theorem place_io_bottom {c : Config} (h : c.memoryMap = .xmega ∨ c.memoryMap = .avrTiny) (a : BitVec 6) :
    place c a.toNat = .io a := by
  have small : a.toNat ≤ 0x3F := Nat.le_of_lt_succ a.isLt
  rcases h with h | h <;> simp [place, h, small]

theorem sramPlace_ne_register (c : Config) (n : Nat) (r : Reg) : sramPlace c n ≠ .register r := by
  unfold sramPlace
  split <;> exact Place.noConfusion

theorem place_ne_register {c : Config} (h : c.memoryMap = .xmega ∨ c.memoryMap = .avrTiny) (n : Nat) (r : Reg) :
    place c n ≠ .register r := by
  rcases h with h | h <;> simp only [place, h] <;> repeat' split
  all_goals first | exact Place.noConfusion | exact sramPlace_ne_register c n r

theorem place_device {c : Config} (h : c.memoryMap = .xmega) {n : Nat} (low : 0x3F < n) (high : n ≤ 0x1FFF) :
    place c n = .device := by
  have above : ¬ n ≤ 0x3F := by omega
  simp only [place, h, if_neg above, if_pos high]

theorem place_atmega_nothing {c : Config} (h : c.memoryMap = .atmega) {a : Nat} (io : 0x60 ≤ a)
    (extIo : c.hasExtIo = true → 0x100 ≤ a) (outside : c.ramEnd < a ∨ a < c.ramStart) : place c a = .nothing := by
  have noRegister : ¬ a ≤ 0x1F := by omega
  have noIo : ¬ a ≤ 0x5F := by omega
  have noExtIo : ¬ (a ≤ 0xFF ∧ c.hasExtIo = true) := fun ⟨le, has⟩ => by have := extIo has; omega
  have noSram : ¬ (c.ramStart ≤ a ∧ a ≤ c.ramEnd) := by omega
  simp only [place, h, if_neg noRegister, if_neg noIo, if_neg noExtIo, sramPlace, if_neg noSram]

/-- Settles O24: map by map, by what the addresses are. -/
theorem registersAndIoInDataSpace : Obligations.RegistersAndIoInDataSpace := by
  intro s v isIo
  refine ⟨fun map => ⟨fun r => ?_, fun a => ?_⟩, fun map n high => ?_, fun map => ⟨fun a => ?_, place_ne_register map⟩,
    fun map n low high => ?_⟩
  · exact ⟨memRead_register (place_register map r), memWrite_register v (place_register map r)⟩
  · exact ⟨memRead_io (place_io_above map a), memWrite_of_io v (place_io_above map a)⟩
  · exact ⟨memRead_nothing (place_avr1 map high), memWrite_nothing v (place_avr1 map high)⟩
  · exact ⟨memRead_io (place_io_bottom map a), memWrite_of_io v (place_io_bottom map a)⟩
  · exact ⟨memRead_device (place_device map low high), memWrite_device v (place_device map low high)⟩

/-- Settles O26: such an address is mapped to nothing. -/
theorem unmappedAddressFaults : Obligations.UnmappedAddressFaults := fun _ _ v map io extIo outside =>
  have nothing := place_atmega_nothing map io extIo outside
  ⟨memRead_nothing nothing, memWrite_nothing v nothing⟩

/-! ## CPU registers in the I/O space (R47, R49) -/

theorem ioRead_of_cpu {s : State} {a : BitVec 6} {v : Byte} (h : cpuRead s a = some v) : ioRead a s = (v, s) := by
  rw [ioRead, h]

theorem ioRead_of_device {s : State} {a : BitVec 6} (h : cpuRead s a = none) :
    ioRead a s = deviceRead (a.toNat + ioBase s.cfg) s := by
  rw [ioRead, h]

theorem ioWrite_of_cpu {s t : State} {a : BitVec 6} {v : Byte} (h : cpuWrite s a v = some t) : ioWrite a v s = t := by
  rw [ioWrite, h]

theorem ioWrite_of_device {s : State} {a : BitVec 6} {v : Byte} (h : cpuWrite s a v = none) :
    ioWrite a v s = deviceWrite (a.toNat + ioBase s.cfg) v s := by
  rw [ioWrite, h]

/-- A CPU register that cannot be read cannot be written. -/
theorem cpuWrite_eq_none {s : State} {a : BitVec 6} (v : Byte) (h : cpuRead s a = none) : cpuWrite s a v = none := by
  unfold cpuRead at h
  split_ifs at h <;> simp_all [cpuWrite]

theorem io_of_device {s : State} {a : BitVec 6} (v : Byte) (h : cpuRead s a = none) :
    ioRead a s = deviceRead (a.toNat + ioBase s.cfg) s ∧ ioWrite a v s = deviceWrite (a.toNat + ioBase s.cfg) v s :=
  ⟨ioRead_of_device h, ioWrite_of_device (cpuWrite_eq_none v h)⟩

theorem cpuRead_below {s : State} {a : BitVec 6} (h : a.toNat < 0x38) : cpuRead s a = none := by
  have ne (b : BitVec 6) (hb : 0x38 ≤ b.toNat) : a ≠ b := fun e => by rw [e] at h; omega
  unfold cpuRead
  rw [if_neg (ne _ (by decide)), if_neg (ne _ (by decide)), if_neg (ne _ (by decide)), if_neg (ne _ (by decide)),
    if_neg (ne _ (by decide)), if_neg (ne _ (by decide)), if_neg (ne _ (by decide)), if_neg (ne _ (by decide))]

/-- R46, R49: the halves of a 16-bit SP, and the 8-bit SP, after a write of one I/O register. -/
theorem writeSpl_sp_16 {s : State} (h : s.cfg.spBits = 16) (v : Byte) : (s.writeSpl v).sp = s.sp.extractLsb' 8 8 ++ v := by
  rw [State.writeSpl_sp, h, Nat.mod_eq_of_lt (BitVec.isLt _), BitVec.ofNat_toNat]; rfl

theorem writeSph_sp_16 {s : State} (h : s.cfg.spBits = 16) (v : Byte) : (s.writeSph v).sp = v ++ s.sp.extractLsb' 0 8 := by
  rw [State.writeSph_sp, h, Nat.mod_eq_of_lt (BitVec.isLt _), BitVec.ofNat_toNat]; rfl

theorem writeSpl_sp_8 {s : State} (h : s.cfg.spBits = 8) (v : Byte) : (s.writeSpl v).sp = v.setWidth 16 := by
  apply BitVec.eq_of_toNat_eq
  have := v.isLt
  rw [State.writeSpl_sp, h, toNat_append_byte, BitVec.toNat_ofNat, BitVec.toNat_setWidth]
  omega

/-- A CPU register that is present answers reads and takes writes. -/
theorem io_of_cpu {s t : State} {a : BitVec 6} {x v : Byte} (read : cpuRead s a = some x)
    (write : cpuWrite s a v = some t) : ioRead a s = (x, s) ∧ ioWrite a v s = t :=
  ⟨ioRead_of_cpu read, ioWrite_of_cpu write⟩

/-- Settles O25: each I/O address of the list is its CPU register where that is present, else the device's. -/
theorem cpuRegistersAsIo : Obligations.CpuRegistersAsIo := by
  intro s v atDevice
  have hasSp_of {b : Bool} (h : (s.cfg.core != .avr1) = b) : hasSp s.cfg = b := h
  refine ⟨⟨rfl, rfl⟩, fun core bits => ?sp16, fun core bits _ => ?sp8, fun core => ?spl, fun core => ⟨?_, ?_⟩, fun e => ?eind,
    fun e => ?rampz, fun e => ?rampy, fun e => ?rampx, fun e => ?rampd, fun e => ?_, fun e => ?_, fun e => ?_,
    fun e => ?_, fun e => ?_, fun a h => io_of_device v (cpuRead_below h)⟩
  case sp16 =>
    have present := hasSp_of (bne_iff_ne.mpr core)
    obtain ⟨readL, writeL⟩ : ioRead 0x3D s = (s.sp.extractLsb' 0 8, s) ∧ ioWrite 0x3D v s = s.writeSpl v :=
      io_of_cpu (by simp [cpuRead, present]) (by simp [cpuWrite, present])
    obtain ⟨readH, writeH⟩ : ioRead 0x3E s = (s.sp.extractLsb' 8 8, s) ∧ ioWrite 0x3E v s = s.writeSph v :=
      io_of_cpu (by simp [cpuRead, present, bits]) (by simp [cpuWrite, present, bits])
    exact ⟨readL, readH, writeL ▸ writeSpl_sp_16 bits v, writeH ▸ writeSph_sp_16 bits v⟩
  case sp8 =>
    have present := hasSp_of (bne_iff_ne.mpr core)
    obtain ⟨readL, writeL⟩ : ioRead 0x3D s = (s.sp.extractLsb' 0 8, s) ∧ ioWrite 0x3D v s = s.writeSpl v :=
      io_of_cpu (by simp [cpuRead, present]) (by simp [cpuWrite, present])
    exact ⟨readL, writeL ▸ writeSpl_sp_8 bits v, io_of_device v (by simp [cpuRead, bits])⟩
  case spl =>
    have present := hasSp_of (bne_iff_ne.mpr core)
    rw [ioWrite_of_cpu (t := s.writeSpl v) (by simp [cpuWrite, present]), State.writeSpl_irqHoldoff]
  case eind =>
    obtain ⟨read, write⟩ : ioRead 0x3C s = (s.eind, s) ∧ ioWrite 0x3C v s = s.setEind v :=
      io_of_cpu (by simp [cpuRead, e]) (by simp [cpuWrite, e])
    exact ⟨read, write ▸ rfl⟩
  case rampz =>
    obtain ⟨read, write⟩ : ioRead 0x3B s = (s.rampz, s) ∧ ioWrite 0x3B v s = s.setRampz v :=
      io_of_cpu (by simp [cpuRead, e]) (by simp [cpuWrite, e])
    exact ⟨read, write ▸ rfl⟩
  case rampy =>
    obtain ⟨read, write⟩ : ioRead 0x3A s = (s.rampy, s) ∧ ioWrite 0x3A v s = s.setRampy v :=
      io_of_cpu (by simp [cpuRead, e]) (by simp [cpuWrite, e])
    exact ⟨read, write ▸ rfl⟩
  case rampx =>
    obtain ⟨read, write⟩ : ioRead 0x39 s = (s.rampx, s) ∧ ioWrite 0x39 v s = s.setRampx v :=
      io_of_cpu (by simp [cpuRead, e]) (by simp [cpuWrite, e])
    exact ⟨read, write ▸ rfl⟩
  case rampd =>
    obtain ⟨read, write⟩ : ioRead 0x38 s = (s.rampd, s) ∧ ioWrite 0x38 v s = s.setRampd v :=
      io_of_cpu (by simp [cpuRead, e]) (by simp [cpuWrite, e])
    exact ⟨read, write ▸ rfl⟩
  · exact io_of_device v (by simp [cpuRead, hasSp, core])
  · exact io_of_device v (by simp [cpuRead, hasSp, core])
  · exact io_of_device v (by simp [cpuRead, e])
  · exact io_of_device v (by simp [cpuRead, e])
  · exact io_of_device v (by simp [cpuRead, e])
  · exact io_of_device v (by simp [cpuRead, e])
  · exact io_of_device v (by simp [cpuRead, e])

end Sys2Proof.Machine
end

section
/-! The stack: SP arithmetic, the bytes of a return address, and that a pop undoes a push (spec/20_memory.md R93 to R95). -/

namespace Sys2Proof.Machine

open Sys2Proof

/-! ## Widths and SP arithmetic (R46, R93, R94) -/

/-- The widths of an accepted configuration. -/
theorem widths_of_ok {c : Config} (h : c.widthsOk = true) :
    (c.pcBits = 16 ∨ c.pcBits = 22) ∧ (c.spBits = 8 ∨ c.spBits = 16) := by
  simpa [Config.widthsOk] using h

theorem spBits_le {c : Config} (h : c.widthsOk = true) : c.spBits ≤ 16 := by
  obtain ⟨_, h | h⟩ := widths_of_ok h <;> omega

theorem toNat_setSp {s : State} (h : s.cfg.spBits ≤ 16) (n : Nat) : (s.setSp n).sp.toNat = n % 2 ^ s.cfg.spBits := by
  rw [State.setSp_sp, BitVec.toNat_ofNat]
  exact Nat.mod_eq_of_lt (Nat.lt_of_lt_of_le (Nat.mod_lt _ (Nat.two_pow_pos _)) (Nat.pow_le_pow_right (by decide) h))

theorem toNat_setPc {s : State} (h : s.cfg.pcBits ≤ 22) (n : Nat) : (s.setPc n).pc.toNat = n % 2 ^ s.cfg.pcBits := by
  rw [State.setPc_pc, BitVec.toNat_ofNat]
  exact Nat.mod_eq_of_lt (Nat.lt_of_lt_of_le (Nat.mod_lt _ (Nat.two_pow_pos _)) (Nat.pow_le_pow_right (by decide) h))

/-- SP after a push counts on from SP before it. -/
theorem spMinus_of_below {s t : State} (cfg : t.cfg = s.cfg) (sp : t.sp.toNat = s.spMinus 1) (k : Nat) :
    t.spMinus k = s.spMinus (k + 1) := by
  unfold State.spMinus at *
  rw [cfg, sp, Nat.mod_add_mod]
  congr 1
  ring

theorem spMinus_zero {s : State} (h : spInRange s) : s.spMinus 0 = s.sp.toNat := by
  rw [State.spMinus, Nat.zero_mul, Nat.add_zero, Nat.mod_eq_of_lt h]

theorem spMinus_one (s : State) : s.spMinus 1 = spBelow s % 2 ^ s.cfg.spBits := by
  rw [State.spMinus, Nat.one_mul]; rfl

theorem toNat_setSp_below {s : State} (h : s.cfg.widthsOk = true) : (s.setSp (spBelow s)).sp.toNat = s.spMinus 1 := by
  rw [toNat_setSp (spBits_le h), spMinus_one]

theorem toNat_setSp_above {s : State} (h : s.cfg.widthsOk = true) :
    (s.setSp (s.sp.toNat + 1)).sp.toNat = s.spPlus 1 := toNat_setSp (spBits_le h) _

/-- The three addresses that a call may push to are different. -/
theorem spMinus_ne {s : State} (h : s.cfg.widthsOk = true) :
    s.spMinus 0 ≠ s.spMinus 1 ∧ s.spMinus 0 ≠ s.spMinus 2 ∧ s.spMinus 1 ≠ s.spMinus 2 := by
  unfold State.spMinus
  obtain ⟨_, e | e⟩ := widths_of_ok h <;> rw [e] <;> omega

/-- SP minus `n`, plus `k`. -/
theorem spPlus_of_minus {s t : State} (cfg : t.cfg = s.cfg) {n k : Nat} (sp : t.sp.toNat = s.spMinus (n + k)) :
    t.spPlus k = s.spMinus n := by
  unfold State.spPlus State.spMinus at *
  rw [cfg, sp, Nat.mod_add_mod]
  have turn : s.sp.toNat + (n + k) * (2 ^ s.cfg.spBits - 1) + k =
      s.sp.toNat + n * (2 ^ s.cfg.spBits - 1) + k * 2 ^ s.cfg.spBits := by
    obtain ⟨m, hm⟩ := Nat.exists_eq_succ_of_ne_zero (Nat.two_pow_pos s.cfg.spBits).ne'
    rw [hm]
    simp only [Nat.succ_eq_add_one, Nat.add_sub_cancel]
    ring
  rw [turn, Nat.add_mul_mod_self_right]

/-- The bytes that a call pushes, counted from SP. -/
theorem callStores_eq {s : State} (hsp : spInRange s) (h : s.cfg.widthsOk = true) :
    callStores s = if s.cfg.pcBits = 22 then [s.spMinus 0, s.spMinus 1, s.spMinus 2] else [s.spMinus 0, s.spMinus 1] := by
  have one := toNat_setSp_below h
  have two := toNat_setSp_below (s := s.setSp (spBelow s)) h
  rw [spMinus_of_below (s := s) (t := s.setSp (spBelow s)) rfl one] at two
  rw [callStores, spMinus_zero hsp, one, two]

/-! ## Pushes (R93, R95) -/

theorem memWrite_cfg {s t : State} {a : Nat} {v : Byte} (h : memWrite a v s = .next t) : t.cfg = s.cfg :=
  ((fixed_stable s.cfg (fun _ => True) s.flash).memWrite h ⟨rfl, trivial, fun _ => rfl⟩).1

theorem push_of_mapped {s : State} (v : Byte) (h : s.cfg.widthsOk = true) (hm : mapped s.cfg s.sp.toNat = true) :
    ∃ t, push v s = .next t ∧ t.cfg = s.cfg ∧ t.sp.toNat = s.spMinus 1 := by
  obtain ⟨u, stored⟩ := memWrite_complete v hm
  have cfg := memWrite_cfg stored
  refine ⟨u.setSp (spBelow s), push_eq_next.mpr ⟨u, stored, rfl⟩, cfg, ?_⟩
  rw [toNat_setSp (by rw [cfg]; exact spBits_le h), cfg, spMinus_one]

/-- A call whose stack is mapped completes. -/
theorem pushPc_of_mapped {s : State} (r : BitVec 22) (hsp : spInRange s) (h : s.cfg.widthsOk = true)
    (hm : ∀ a ∈ callStores s, mapped s.cfg a = true) :
    ∃ t, pushPc r s = .next t ∧ t.cfg = s.cfg ∧ t.sp.toNat = s.spMinus (pcBytes s.cfg) := by
  rw [callStores_eq hsp h] at hm
  have m0 : mapped s.cfg (s.spMinus 0) = true := hm _ (by split <;> simp)
  have m1 : mapped s.cfg (s.spMinus 1) = true := hm _ (by split <;> simp)
  obtain ⟨s1, h1, c1, sp1⟩ := push_of_mapped (r.extractLsb' 0 8) h (by rwa [← spMinus_zero hsp])
  obtain ⟨s2, h2, c2, sp2⟩ := push_of_mapped (r.extractLsb' 8 8) (s := s1) (by rwa [c1]) (by rwa [c1, sp1])
  rw [spMinus_of_below c1 sp1] at sp2
  by_cases wide : s.cfg.pcBits = 22
  · have m2 : mapped s.cfg (s.spMinus 2) = true := hm _ (by simp [wide])
    obtain ⟨s3, h3, c3, sp3⟩ := push_of_mapped ((r.extractLsb' 16 6).setWidth 8) (s := s2) (by rwa [c2, c1])
      (by rwa [c2, c1, sp2])
    have sp21 : s2.spMinus 1 = s.spMinus 3 := by
      rw [spMinus_of_below (s := s1) c2 (by rw [sp2, spMinus_of_below c1 sp1]), spMinus_of_below c1 sp1]
    refine ⟨s3, pushPc_eq_next.mpr ⟨s1, s2, h1, h2, by rw [if_pos wide]; exact h3⟩, by rw [c3, c2, c1], ?_⟩
    rw [sp3, sp21, pcBytes, if_pos wide]
  · refine ⟨s2, pushPc_eq_next.mpr ⟨s1, s2, h1, h2, by rw [if_neg wide]⟩, by rw [c2, c1], ?_⟩
    rw [sp2, pcBytes, if_neg wide]

/-- `t` is `s` but for SRAM and SP. -/
def OnlyStack (s t : State) : Prop := t = { s with sram := t.sram, sp := t.sp }

theorem OnlyStack.trans {s t u : State} (h : OnlyStack s t) (h' : OnlyStack t u) : OnlyStack s u := by
  unfold OnlyStack at *
  rw [h', h]

/-- A byte pushed in SRAM is there, and every other byte and field is as before. -/
theorem push_of_isSram {s : State} (v : Byte) (ok : sramOk s) (hsp : spInRange s) (h : s.cfg.widthsOk = true)
    (hs : isSram s.cfg (s.spMinus 0) = true) :
    ∃ t, push v s = .next t ∧ OnlyStack s t ∧ sramOk t ∧ t.sp.toNat = s.spMinus 1 ∧ t.sramAt (s.spMinus 0) = v ∧
      ∀ a, a ≠ s.spMinus 0 → t.sramAt a = s.sramAt a := by
  rw [spMinus_zero hsp] at *
  have inSram := place_of_isSram hs
  exact ⟨_, push_eq_next.mpr ⟨_, memWrite_sram v inSram, rfl⟩, rfl, sramOk_write inSram v ok, toNat_setSp_below h,
    sramAt_write_same ok _ v, fun _ other => sramAt_write_other s v other⟩

theorem spInRange_of_spMinus {s t : State} {n : Nat} (cfg : t.cfg = s.cfg) (h : t.sp.toNat = s.spMinus n) :
    spInRange t := by
  unfold spInRange
  rw [h, cfg]
  exact Nat.mod_lt _ (Nat.two_pow_pos _)

/-- R95: a return address pushed in SRAM: its bytes, low byte highest, and nothing else changed but SP. -/
theorem pushPc_of_sram {s : State} (r : BitVec 22) (ok : sramOk s) (hsp : spInRange s) (h : s.cfg.widthsOk = true)
    (hs : stackInSram s) :
    ∃ t, pushPc r s = .next t ∧ OnlyStack s t ∧ t.sp.toNat = s.spMinus (pcBytes s.cfg) ∧
      t.sramAt (s.spMinus 0) = r.extractLsb' 0 8 ∧ t.sramAt (s.spMinus 1) = r.extractLsb' 8 8 ∧
      (s.cfg.pcBits = 22 → t.sramAt (s.spMinus 2) = (r.extractLsb' 16 6).setWidth 8) ∧
      ∀ a, a ∉ callStores s → t.sramAt a = s.sramAt a := by
  obtain ⟨ne01, ne02, ne12⟩ := spMinus_ne h
  unfold stackInSram at hs
  rw [callStores_eq hsp h] at hs ⊢
  obtain ⟨s1, h1, o1, ok1, sp1, b1, keep1⟩ := push_of_isSram (r.extractLsb' 0 8) ok hsp h (hs _ (by split <;> simp))
  have c1 : s1.cfg = s.cfg := by rw [o1]
  have minus1 := spMinus_of_below c1 sp1
  obtain ⟨s2, h2, o2, ok2, sp2, b2, keep2⟩ := push_of_isSram (r.extractLsb' 8 8) ok1 (spInRange_of_spMinus c1 sp1)
    (by rwa [c1]) (by rw [c1, minus1]; exact hs _ (by split <;> simp))
  have c2 : s2.cfg = s1.cfg := by rw [o2]
  have minus2 := spMinus_of_below c2 sp2
  rw [minus1] at sp2 b2 keep2 
  by_cases wide : s.cfg.pcBits = 22
  · obtain ⟨s3, h3, o3, ok3, sp3, b3, keep3⟩ := push_of_isSram ((r.extractLsb' 16 6).setWidth 8) ok2
      (spInRange_of_spMinus (s := s) (by rw [c2, c1]) sp2) (by rwa [c2, c1])
      (by rw [c2, c1, minus2, minus1]; exact hs _ (by simp [wide]))
    rw [minus2, minus1] at sp3 b3 keep3
    refine ⟨s3, pushPc_eq_next.mpr ⟨s1, s2, h1, h2, by rwa [if_pos wide]⟩, o1.trans (o2.trans o3), ?_, ?_, ?_, ?_, ?_⟩
    · rw [sp3, pcBytes, if_pos wide]
    · rw [keep3 _ ne02, keep2 _ ne01, b1]
    · rw [keep3 _ ne12, b2]
    · exact fun _ => b3
    · intro a ha
      simp only [wide, if_true, List.mem_cons, List.not_mem_nil, or_false, not_or] at ha
      rw [keep3 a ha.2.2, keep2 a ha.2.1, keep1 a ha.1]
  · refine ⟨s2, pushPc_eq_next.mpr ⟨s1, s2, h1, h2, by rw [if_neg wide]⟩, o1.trans o2, ?_, ?_, b2,
      fun e => absurd e wide, ?_⟩
    · rw [sp2, pcBytes, if_neg wide]
    · rw [keep2 _ ne01, b1]
    · intro a ha
      simp only [wide, if_false, List.mem_cons, List.not_mem_nil, or_false, not_or] at ha
      rw [keep2 a ha.2, keep1 a ha.1]

/-- Settles O27, by the layout of a return address pushed in SRAM. -/
theorem returnAddressLayout : Obligations.ReturnAddressLayout := by
  intro s r ⟨_, hsp, _, _, ok, _, _⟩ h hs
  obtain ⟨t, pushed, only, sp, b0, b1, b2, keep⟩ := pushPc_of_sram r ok hsp h hs
  exact ⟨t, pushed, b0, b1, b2, sp, keep, only⟩

/-! ## Pops (R94, R95) -/

theorem setSp_spPlus (s : State) (n : Nat) : s.setSp (s.spPlus n) = s.setSp (s.sp.toNat + n) := by
  simp only [State.setSp, State.spPlus, Nat.mod_mod]

theorem pop_eq {s : State} (h : s.cfg.widthsOk = true) : pop s = memRead (s.spPlus 1) (s.setSp (s.spPlus 1)) := by
  rw [setSp_spPlus, ← toNat_setSp_above h]; rfl

/-- A pop at a mapped address: SP one higher, and nothing else but the platform's own state. -/
theorem pop_of_mapped {s : State} (h : s.cfg.widthsOk = true) (hm : mapped s.cfg (s.spPlus 1) = true) :
    ∃ v p, pop s = .next (v, (s.setSp (s.spPlus 1)).setPlatform p) ∧
      (s.setSp (s.spPlus 1)).dataByte (s.spPlus 1) = some v := by
  obtain ⟨v, t, read, byte⟩ := memRead_complete (s := s.setSp (s.spPlus 1)) hm
  obtain ⟨p, rfl, _⟩ := memRead_state read
  exact ⟨v, p, by rw [pop_eq h, read], byte⟩

/-- A pop of a byte of SRAM. -/
theorem pop_of_isSram {s : State} (h : s.cfg.widthsOk = true) (hs : isSram s.cfg (s.spPlus 1) = true) :
    pop s = .next (s.sramAt (s.spPlus 1), s.setSp (s.spPlus 1)) := by
  rw [pop_eq h]
  exact memRead_sram (s := s.setSp (s.spPlus 1)) (place_of_isSram hs)

/-- SP after pops, where it is a number of `SP_BITS` bits. -/
theorem setSp_spPlus_spPlus {s : State} (h : s.cfg.widthsOk = true) (j k : Nat) :
    (s.setSp (s.spPlus j)).spPlus k = s.spPlus (j + k) := by
  unfold State.spPlus
  rw [toNat_setSp (spBits_le h), State.setSp_cfg, Nat.mod_mod, Nat.mod_add_mod, Nat.add_assoc]

theorem toNat_append_bytes (x y z : Byte) : (x ++ (y ++ z)).toNat = x.toNat * 65536 + y.toNat * 256 + z.toNat := by
  rw [toNat_append_word, toNat_append_byte, Nat.add_assoc]

theorem popPc_wide {s t2 t1 t0 : State} {v2 v1 v0 : Byte} (wide : s.cfg.pcBits = 22) (h2 : pop s = .next (v2, t2))
    (h1 : pop t2 = .next (v1, t1)) (h0 : pop t1 = .next (v0, t0)) :
    popPc s = .next (v2.toNat * 65536 + v1.toNat * 256 + v0.toNat, t0) := by
  simp only [popPc, popPcTop, if_pos wide, h2, h1, h0, andThen_next, toNat_append_bytes]

theorem popPc_narrow {s t1 t0 : State} {v1 v0 : Byte} (narrow : s.cfg.pcBits ≠ 22) (h1 : pop s = .next (v1, t1))
    (h0 : pop t1 = .next (v0, t0)) : popPc s = .next (v1.toNat * 256 + v0.toNat, t0) := by
  have zero : (0 : Byte).toNat = 0 := rfl
  simp only [popPc, popPcTop, if_neg narrow, h1, h0, andThen_next, toNat_append_bytes, zero, Nat.zero_mul, Nat.zero_add]

/-- R95: popping a return address at mapped addresses completes; nothing changes but SP and the platform's own state. -/
theorem popPc_of_mapped {s : State} (h : s.cfg.widthsOk = true) (hm : ∀ a ∈ popAddresses s, mapped s.cfg a = true) :
    ∃ n p, popPc s = .next (n, (s.setSp (s.spPlus (pcBytes s.cfg))).setPlatform p) := by
  have again (j : Nat) (p : Nat) (hj : mapped s.cfg (s.spPlus (j + 1)) = true) :
      ∃ v p', pop ((s.setSp (s.spPlus j)).setPlatform p) = .next (v, (s.setSp (s.spPlus (j + 1))).setPlatform p') := by
    have above : ((s.setSp (s.spPlus j)).setPlatform p).spPlus 1 = s.spPlus (j + 1) := setSp_spPlus_spPlus h j 1
    obtain ⟨v, p', popped, _⟩ := pop_of_mapped (s := (s.setSp (s.spPlus j)).setPlatform p) h (by rwa [above])
    exact ⟨v, p', by rw [popped, above]; rfl⟩
  unfold popAddresses at hm
  by_cases wide : s.cfg.pcBits = 22
  · rw [if_pos wide] at hm
    obtain ⟨v2, p2, top, _⟩ := pop_of_mapped h (hm _ (by simp))
    obtain ⟨v1, p1, middle⟩ := again 1 p2 (hm _ (by simp))
    obtain ⟨v0, p0, low⟩ := again 2 p1 (hm _ (by simp))
    exact ⟨_, p0, by rw [pcBytes, if_pos wide]; exact popPc_wide wide top middle low⟩
  · rw [if_neg wide] at hm
    obtain ⟨v1, p1, middle, _⟩ := pop_of_mapped h (hm _ (by simp))
    obtain ⟨v0, p0, low⟩ := again 1 p1 (hm _ (by simp))
    exact ⟨_, p0, by rw [pcBytes, if_neg wide]; exact popPc_narrow wide middle low⟩

/-- The number that the popped bytes make. -/
def poppedPc (s : State) : Nat :=
  if s.cfg.pcBits = 22 then
    (s.sramAt (s.spPlus 1)).toNat * 65536 + (s.sramAt (s.spPlus 2)).toNat * 256 + (s.sramAt (s.spPlus 3)).toNat
  else (s.sramAt (s.spPlus 1)).toNat * 256 + (s.sramAt (s.spPlus 2)).toNat

/-- R95: a return address popped in SRAM, its most significant byte at the lowest address. -/
theorem popPc_of_isSram {s : State} (h : s.cfg.widthsOk = true) (hs : ∀ a ∈ popAddresses s, isSram s.cfg a = true) :
    popPc s = .next (poppedPc s, s.setSp (s.spPlus (pcBytes s.cfg))) := by
  have again (j : Nat) (hj : isSram s.cfg (s.spPlus (j + 1)) = true) :
      pop (s.setSp (s.spPlus j)) = .next (s.sramAt (s.spPlus (j + 1)), s.setSp (s.spPlus (j + 1))) := by
    have above : (s.setSp (s.spPlus j)).spPlus 1 = s.spPlus (j + 1) := setSp_spPlus_spPlus h j 1
    rw [pop_of_isSram (s := s.setSp (s.spPlus j)) h (by rwa [above]), above]; rfl
  unfold popAddresses at hs
  unfold poppedPc
  by_cases wide : s.cfg.pcBits = 22
  · rw [if_pos wide] at hs
    rw [if_pos wide, pcBytes, if_pos wide]
    exact popPc_wide wide (pop_of_isSram h (hs _ (by simp))) (again 1 (hs _ (by simp))) (again 2 (hs _ (by simp)))
  · rw [if_neg wide] at hs
    rw [if_neg wide, pcBytes, if_neg wide]
    exact popPc_narrow wide (pop_of_isSram h (hs _ (by simp))) (again 1 (hs _ (by simp)))

/-- The address bytes of R95 put together again. -/
theorem returnAddress_of_bytes (r : BitVec 22) :
    ((r.extractLsb' 16 6).setWidth 8 : Byte).toNat * 65536 + (r.extractLsb' 8 8).toNat * 256 + (r.extractLsb' 0 8).toNat =
      r.toNat := by
  have := r.isLt
  simp only [BitVec.toNat_setWidth, BitVec.extractLsb'_toNat, Nat.shiftRight_eq_div_pow]
  omega

/-- R95: what was pushed in SRAM is popped again, with SP where it was. -/
theorem popPc_of_pushed {s t : State} {r : BitVec 22} (hsp : spInRange s) (h : s.cfg.widthsOk = true) (hs : stackInSram s)
    (narrow : r.toNat < 2 ^ s.cfg.pcBits) (cfg : t.cfg = s.cfg) (sp : t.sp.toNat = s.spMinus (pcBytes s.cfg))
    (b0 : t.sramAt (s.spMinus 0) = r.extractLsb' 0 8) (b1 : t.sramAt (s.spMinus 1) = r.extractLsb' 8 8)
    (b2 : s.cfg.pcBits = 22 → t.sramAt (s.spMinus 2) = (r.extractLsb' 16 6).setWidth 8) :
    popPc t = .next (r.toNat, t.setSp s.sp.toNat) := by
  have bytes := returnAddress_of_bytes r
  unfold stackInSram at hs
  rw [callStores_eq hsp h] at hs
  have popped := popPc_of_isSram (s := t) (by rwa [cfg])
  unfold popAddresses poppedPc pcBytes at popped
  unfold pcBytes at sp
  rw [cfg] at popped
  obtain ⟨wide | wide, _⟩ := widths_of_ok h
  · have low : s.cfg.pcBits ≠ 22 := by omega
    rw [if_neg low] at sp hs
    rw [if_neg low, if_neg low, if_neg low, spPlus_of_minus (n := 1) (k := 1) cfg sp,
      spPlus_of_minus (n := 0) (k := 2) cfg sp, b0, b1, spMinus_zero hsp] at popped
    rw [popped fun a ha => hs a (by simpa [spMinus_zero hsp, or_comm] using ha)]
    rw [wide] at narrow
    have top : ((r.extractLsb' 16 6).setWidth 8 : Byte).toNat = 0 := by
      simp only [BitVec.toNat_setWidth, BitVec.extractLsb'_toNat, Nat.shiftRight_eq_div_pow]
      omega
    rw [top, Nat.zero_mul, Nat.zero_add] at bytes
    rw [bytes]
  · rw [if_pos wide] at sp hs
    rw [if_pos wide, if_pos wide, if_pos wide, spPlus_of_minus (n := 2) (k := 1) cfg sp,
      spPlus_of_minus (n := 1) (k := 2) cfg sp, spPlus_of_minus (n := 0) (k := 3) cfg sp, b0, b1, b2 wide, bytes,
      spMinus_zero hsp] at popped
    rw [popped fun a ha => hs a (by simpa [spMinus_zero hsp, or_comm, or_left_comm, or_assoc] using ha)]

/-- Settles O28: the bytes popped are those pushed, and the number that they make is the address. -/
theorem popPcAfterPushPc : Obligations.PopPcAfterPushPc := by
  intro s t r ⟨_, hsp, _, _, ok, _, _⟩ h hs narrow pushed
  obtain ⟨t', pushed', only, sp, b0, b1, b2, keep⟩ := pushPc_of_sram r ok hsp h hs
  obtain rfl : t' = t := by rw [pushed] at pushed'; cases pushed'; rfl
  have cfg : t'.cfg = s.cfg := by rw [only]
  refine ⟨_, popPc_of_pushed hsp h hs narrow cfg sp b0 b1 b2, ?_, keep, fun q => by rw [only]; rfl⟩
  apply BitVec.eq_of_toNat_eq
  rw [toNat_setSp (by rw [cfg]; exact spBits_le h), cfg, Nat.mod_eq_of_lt hsp]

end Sys2Proof.Machine
end

section
/-! What each instruction leaves unchanged: the frame of every form of a meaning, and from these the frame of every
instruction (spec/10_state.md section 3, spec/20_memory.md R98). -/

namespace Sys2Proof.Machine

open Sys2Proof

/-! ## Flags by bit number, I/O addresses in the data space -/

theorem bit_flagOfBit (b : BitVec 3) : (flagOfBit b).bit = b.toNat := by
  revert b; decide

/-- A bit of SREG written by its number is a flag written. -/
theorem putBit_eq_putFlag (sreg : Byte) (b : BitVec 3) (v : Bool) :
    putBit sreg b.toNat v = putFlag sreg (flagOfBit b) v := by
  rw [putFlag, bit_flagOfBit]

theorem flagOfBit_eq_I (b : BitVec 3) : flagOfBit b = .I ↔ b = 7 := by
  revert b; decide

/-- R47, R83: every I/O address has its data address in every map. -/
theorem place_ioBase (c : Config) (a : BitVec 6) : place c (a.toNat + ioBase c) = .io a := by
  unfold ioBase
  cases map : c.memoryMap
  case atmega => exact place_io_above (.inl map) a
  case avr1 => exact place_io_above (.inr map) a
  case xmega => exact place_io_bottom (.inl map) a
  case avrTiny => exact place_io_bottom (.inr map) a

theorem memWrite_ioBase (a : BitVec 6) (v : Byte) (s : State) :
    memWrite (a.toNat + ioBase s.cfg) v s = .next (ioWrite a v s) := memWrite_of_io v (place_ioBase s.cfg a)

namespace Frame

variable {c : Change} {s t u : State}

/-! ## The forms of the meanings -/

theorem finishAlu (h : Frame c s t) {d : Reg} (hd : d ∈ c.regs) {v sreg : Byte}
    (kept : ∀ f, f ∉ c.flags → getFlag sreg f = t.flag f) : Frame c s (finishAlu d v sreg t) :=
  ((h.setReg hd v).setSreg kept).advance 1

theorem finishCompare (h : Frame c s t) {sreg : Byte} (kept : ∀ f, f ∉ c.flags → getFlag sreg f = t.flag f) :
    Frame c s (finishCompare sreg t) := (h.setSreg kept).advance 1

/-- A 16-bit result in a pair, with flags: the multiplications, ADIW and SBIW. -/
theorem finishPair (h : Frame c s t) {d : Reg} (hd : d ∈ c.regs) (hd' : d + 1 ∈ c.regs) {w : Word} {sreg : Byte}
    (kept : ∀ f, f ∉ c.flags → getFlag sreg f = t.flag f) : Frame c s (((t.setPair d w).setSreg sreg).advance 1) :=
  ((h.setPair hd hd' w).setSreg kept).advance 1

theorem loadFrom (h : Frame c s t) {a : Nat} {d : Reg} {after : State → State} {len : Nat} (hd : d ∈ c.regs)
    (hafter : ∀ w, Frame c s w → Frame c s (after w)) (done : loadFrom a d after len t = .next u) : Frame c s u := by
  obtain ⟨v, w, read, rfl⟩ := loadFrom_eq_next.mp done
  exact (hafter _ ((h.memRead read).setReg hd v)).advance len

theorem storeTo (h : Frame c s t) {a : Nat} {v : Byte} {after : State → State} {len : Nat} (ha : a ∈ c.stores)
    (hafter : ∀ w, Frame c s w → Frame c s (after w)) (done : storeTo a v after len t = .next u) : Frame c s u := by
  obtain ⟨w, stored, rfl⟩ := storeTo_eq_next.mp done
  exact (hafter _ (h.memWrite ha stored)).advance len

theorem loadProgram (h : Frame c s t) {b : Nat} {d : Reg} {after : State → State} (hd : d ∈ c.regs)
    (hafter : ∀ w, Frame c s w → Frame c s (after w)) (done : loadProgram b d after t = .next u) : Frame c s u := by
  obtain ⟨_, rfl⟩ := loadProgram_eq_next.mp done
  exact (hafter _ (h.setReg hd _)).advance 1

theorem readModifyWrite (h : Frame c s t) {f : Byte → Byte → Byte} {d : Reg} (hd : d ∈ c.regs)
    (ha : dataAddr .z t ∈ c.stores) (done : readModifyWrite f d t = .next u) : Frame c s u := by
  obtain ⟨v, w, x, read, stored, rfl⟩ := readModifyWrite_eq_next.mp done
  exact (((h.memRead read).memWrite ha stored).setReg hd v).advance 1

theorem skipIf (h : Frame c s t) {cond : Bool} (done : skipIf cond t = .next u) : Frame c s u := by
  rcases skipIf_eq_next.mp done with ⟨_, rfl⟩ | ⟨_, _, _, rfl⟩ <;> exact h.advance _

/-- A write of an I/O register is a store to its data address (R47, R83). -/
theorem ioWrite (h : Frame c s t) {a : BitVec 6} (v : Byte) (ha : a.toNat + ioBase t.cfg ∈ c.stores) :
    Frame c s (ioWrite a v t) := h.memWrite ha (memWrite_ioBase a v t)

/-- A write of SREG that arms the hold-off where it sets I, with the flag of I listed only with the hold-off. -/
theorem writeSreg (h : Frame c s t) {v : Byte} (kept : ∀ f, f ∉ c.flags → getFlag v f = t.flag f)
    (noI : c.holdoff = false → .I ∉ c.flags) : Frame c s (t.writeSreg v) :=
  { h with
    flags := fun f hf hp => (kept f hf).trans (h.flags f hf hp)
    holdoff := fun e hp hp' => by
      rw [State.writeSreg_irqHoldoff, kept .I (noI e), State.flag, Bool.and_not_self, Bool.or_false]
      exact h.holdoff e hp hp' }

theorem setLowRegs (h : Frame c s t) (v : Vector Byte 16) (hc : ∀ r : Reg, r.toNat < 16 → r ∈ c.regs) :
    Frame c s (t.setLowRegs v) :=
  { h with
    regs := fun r hr hp => by
      rw [State.reg_setLowRegs, dif_neg fun low => hr (hc r low)]
      exact h.regs r hr hp }

theorem applySpm (h : Frame c s t) (hc : c.program = true) : Frame c s (applySpm t) :=
  { h with
    io := fun e => by simp [hc] at e
    flash := fun e => by simp [hc] at e
    platform := fun _ _ e => by simp [hc] at e }

/-! ## The stack -/

/-- A push stores at SP and lowers SP, which a store to the old SP does not change. -/
theorem push_sp {s t : State} {v : Byte} (pushed : Machine.push v s = .next t) :
    t.cfg = s.cfg ∧ t.sp = (s.setSp (spBelow s)).sp := by
  obtain ⟨w, stored, rfl⟩ := push_eq_next.mp pushed
  have cfg := memWrite_cfg stored
  exact ⟨cfg, by rw [State.setSp_sp, State.setSp_sp, cfg]⟩

theorem spBelow_congr {s t : State} (cfg : t.cfg = s.cfg) (sp : t.sp = s.sp) : spBelow t = spBelow s := by
  rw [spBelow, spBelow, cfg, sp]

/-- R95: a call stores at the addresses of `callStores`. -/
theorem pushPc (h : Frame c s s) {r : BitVec 22} (ha : ∀ a ∈ callStores s, a ∈ c.stores) (hc : c.sp = true)
    (pushed : pushPc r s = .next t) : Frame c s t := by
  obtain ⟨s1, s2, h1, h2, h3⟩ := pushPc_eq_next.mp pushed
  obtain ⟨c1, p1⟩ := push_sp h1
  obtain ⟨c2, p2⟩ := push_sp h2
  have e2 : s2.sp = ((s.setSp (spBelow s)).setSp (spBelow (s.setSp (spBelow s)))).sp := by
    rw [p2, spBelow_congr (s := s.setSp (spBelow s)) c1 p1, State.setSp_sp, c1]; rfl
  have f1 := h.push (ha _ (by unfold callStores; split <;> simp)) hc h1
  have f2 := f1.push (ha _ (by rw [p1]; unfold callStores; split <;> simp)) hc h2
  split at h3
  case isTrue wide => exact f2.push (ha _ (by rw [e2, callStores, if_pos wide]; simp)) hc h3
  case isFalse => cases h3; exact f2

theorem callTo {target len : Nat} (ha : ∀ a ∈ callStores s, a ∈ c.stores) (hc : c.sp = true)
    (done : callTo target len s = .next t) : Frame c s t := by
  obtain ⟨u, pushed, rfl⟩ := callTo_eq_next.mp done
  exact (Frame.pushPc (Frame.refl c s) ha hc pushed).setPc _

theorem popPc (h : Frame c s t) (hc : c.sp = true) {n : Nat} (popped : popPc t = .next (n, u)) : Frame c s u := by
  obtain ⟨x2, x1, x0, h2, h1, h0, _, rfl⟩ := popPc_eq_next.mp popped
  have top : Frame c s x2.2 := by
    unfold popPcTop at h2
    split at h2
    · exact h.pop hc h2
    · cases h2; exact h
  exact (top.pop hc h1).pop hc h0

theorem finishReti (h : Frame c s t) (flag : .I ∈ c.flags) (hc : c.holdoff = true) : Frame c s (finishReti t) := by
  refine setHoldoff ?_ hc true
  split
  · unfold irqReti
    split
    · exact h
    · next platform => exact h.setPlatform fun _ e _ => by rw [h.cfg, e] at platform; cases platform
  · exact h.setSreg fun f hf => (getFlag_putFlag ..).trans (if_neg fun (e : f = _) => hf (e ▸ flag))

end Frame

/-! ## Every instruction -/

theorem lowRegs_listed : ∀ r : Reg, r.toNat < 16 → r ∈ ([0, 1, 2, 3, 4, 5, 6, 7, 8, 9, 10, 11, 12, 13, 14, 15] : List Reg) := by
  decide

/-- R98: an instruction changes what `changes` lists for it, and the PC. -/
theorem exec_frame {i : Instr} {s t : State} (h : exec i s = .next t) : Frame (changes i s) s t := by
  have nothing := Frame.refl (changes i s) s
  have head {α : Type} {a : α} {l : List α} : a ∈ a :: l := List.mem_cons_self
  have second {α : Type} {a b : α} {l : List α} : b ∈ a :: b :: l := List.mem_cons_of_mem _ head
  cases i with
  | nop => cases h; exact nothing.advance 1
  | add d r | adc d r => obtain ⟨_, ⟨⟩⟩ := requires_eq_next.mp h; exact nothing.finishAlu head (getFlag_addFlags _ _ _ _)
  | sub d r | subi d k | sbc d r | sbci d k | neg d =>
    obtain ⟨_, ⟨⟩⟩ := requires_eq_next.mp h; exact nothing.finishAlu head (getFlag_subFlags _ _ _ _ _)
  | and d r | andi d k | or d r | ori d k | eor d r =>
    obtain ⟨_, ⟨⟩⟩ := requires_eq_next.mp h; exact nothing.finishAlu head (getFlag_logicFlags _ _)
  | inc d => obtain ⟨_, ⟨⟩⟩ := requires_eq_next.mp h; exact nothing.finishAlu head (getFlag_incFlags _ _)
  | dec d => obtain ⟨_, ⟨⟩⟩ := requires_eq_next.mp h; exact nothing.finishAlu head (getFlag_decFlags _ _)
  | lsr d | ror d | asr d =>
    obtain ⟨_, ⟨⟩⟩ := requires_eq_next.mp h; exact nothing.finishAlu head (getFlag_shiftRightFlags _ _ _)
  | com d =>
    obtain ⟨_, ⟨⟩⟩ := requires_eq_next.mp h
    refine nothing.finishAlu head fun f hf => ?_
    rw [getFlag_putFlag, if_neg fun (e : f = .C) => hf (e ▸ (by decide : Flag.C ∈ flagsShift))]
    exact getFlag_logicFlags _ _ _ fun logic => hf (List.mem_append_left [Flag.C] logic)
  | cp d r | cpc d r | cpi d k =>
    obtain ⟨_, ⟨⟩⟩ := requires_eq_next.mp h; exact nothing.finishCompare (getFlag_subFlags _ _ _ _ _)
  | adiw d k => obtain ⟨_, ⟨⟩⟩ := requires_eq_next.mp h; exact nothing.finishPair head second (getFlag_adiwFlags _ _ _)
  | sbiw d k => obtain ⟨_, ⟨⟩⟩ := requires_eq_next.mp h; exact nothing.finishPair head second (getFlag_sbiwFlags _ _ _)
  | mul d r | muls d r | mulsu d r =>
    obtain ⟨_, ⟨⟩⟩ := requires_eq_next.mp h; exact nothing.finishPair head second (getFlag_mulFlags _ _)
  | fmul d r | fmuls d r | fmulsu d r =>
    obtain ⟨_, ⟨⟩⟩ := requires_eq_next.mp h; exact nothing.finishPair head second (getFlag_fmulFlags _ _)
  | swap d | mov d r | ldi d k | bld d b =>
    obtain ⟨_, ⟨⟩⟩ := requires_eq_next.mp h; exact (nothing.setReg head _).advance 1
  | movw d r => obtain ⟨_, ⟨⟩⟩ := requires_eq_next.mp h; exact (nothing.setPair head second _).advance 1
  | inp d a => obtain ⟨_, ⟨⟩⟩ := requires_eq_next.mp h; exact ((nothing.ioRead a).setReg head _).advance 1
  | out a r => obtain ⟨_, ⟨⟩⟩ := requires_eq_next.mp h; exact (nothing.ioWrite _ head).advance 1
  | sbi a b | cbi a b =>
    cases h
    have read := nothing.ioRead (a.setWidth 6)
    refine (read.ioWrite _ ?_).advance 1
    rw [read.cfg, BitVec.toNat_setWidth_of_le (by decide)]
    exact head
  | bset b =>
    cases h
    refine (nothing.writeSreg (fun f hf => ?_) fun e hI => ?_).advance 1
    · rw [putBit_eq_putFlag, getFlag_putFlag, if_neg fun (e : f = _) => hf (e ▸ head)]; rfl
    · have seven := (flagOfBit_eq_I b).mp (List.mem_singleton.mp hI).symm
      exact absurd seven (by simpa [changes] using e)
  | bclr b =>
    cases h
    refine (nothing.setSreg fun f hf => ?_).advance 1
    rw [putBit_eq_putFlag, getFlag_putFlag, if_neg fun (e : f = _) => hf (e ▸ head)]; rfl
  | bst d b =>
    obtain ⟨_, ⟨⟩⟩ := requires_eq_next.mp h
    exact (nothing.setSreg fun f hf => (getFlag_putFlag ..).trans (if_neg fun (e : f = _) => hf (e ▸ head))).advance 1
  | brk =>
    obtain ⟨_, h⟩ := requires_eq_next.mp h
    split at h <;> cases h
    · exact nothing.setRun rfl _
    · exact nothing.advance 1
  | sleep =>
    cases h
    split
    · exact (nothing.advance 1).setRun rfl _
    · exact nothing.advance 1
  | wdr =>
    cases h
    refine Frame.advance ?_ 1
    unfold deviceWdr
    split
    · exact nothing
    · next platform => exact nothing.setPlatform fun e => by rw [e] at platform; cases platform
  | lds d k | ldX d | lddY d q | lddZ d q =>
    obtain ⟨_, h⟩ := requires_eq_next.mp h; exact nothing.loadFrom head (fun _ hw => hw) h
  | ldXInc d | ldXDec d | ldYInc d | ldYDec d | ldZInc d | ldZDec d =>
    obtain ⟨_, h⟩ := requires_eq_next.mp h
    obtain ⟨_, _, h⟩ := requiresDisjoint_eq_next.mp h
    exact nothing.loadFrom head
      (fun _ hw => hw.setPtr (fun _ => List.mem_cons_of_mem _) (fun ext => by simp [changes, Ptr.rampWritten, ext]) _) h
  | sts k r | stX r | stdY q r | stdZ q r =>
    obtain ⟨_, h⟩ := requires_eq_next.mp h; exact nothing.storeTo head (fun _ hw => hw) h
  | stXInc r | stXDec r | stYInc r | stYDec r | stZInc r | stZDec r =>
    obtain ⟨_, h⟩ := requires_eq_next.mp h
    obtain ⟨_, _, h⟩ := requiresDisjoint_eq_next.mp h
    exact nothing.storeTo head
      (fun _ hw => hw.setPtr (fun _ hr => hr) (fun ext => by simp [changes, Ptr.rampWritten, ext]) _) h
  | push r =>
    obtain ⟨_, h⟩ := requires_eq_next.mp h
    obtain ⟨u, pushed, ⟨⟩⟩ := andThen_eq_next.mp h
    exact (nothing.push head rfl pushed).advance 1
  | pop d =>
    obtain ⟨_, h⟩ := requires_eq_next.mp h
    obtain ⟨x, popped, ⟨⟩⟩ := andThen_eq_next.mp h
    exact ((nothing.pop rfl popped).setReg head _).advance 1
  | lpm | lpmZ d | elpm | elpmZ d =>
    obtain ⟨_, h⟩ := requires_eq_next.mp h; exact nothing.loadProgram head (fun _ hw => hw) h
  | lpmZInc d =>
    obtain ⟨_, h⟩ := requires_eq_next.mp h
    obtain ⟨_, _, h⟩ := requiresDisjoint_eq_next.mp h
    exact nothing.loadProgram head (fun _ hw => hw.setPair second (List.mem_cons_of_mem _ second) _) h
  | elpmZInc d =>
    obtain ⟨_, h⟩ := requires_eq_next.mp h
    obtain ⟨_, _, h⟩ := requiresDisjoint_eq_next.mp h
    exact nothing.loadProgram head
      (fun _ hw => (hw.setPair second (List.mem_cons_of_mem _ second) _).setRamp (p := .z) head _) h
  | spm =>
    obtain ⟨_, h⟩ := requires_eq_next.mp h
    unfold withSpmEffect at h
    split at h <;> cases h
    exact (nothing.applySpm rfl).advance 1
  | spmZInc =>
    obtain ⟨_, h⟩ := requires_eq_next.mp h
    unfold withSpmEffect at h
    split at h <;> cases h
    have pair := (nothing.applySpm rfl).setPair (r := 30) head second (s.pair 30 + 2)
    refine Frame.advance ?_ 1
    unfold bumpZ
    dsimp only
    split
    · exact pair.setRamp (p := .z) head _
    · exact pair
  | rjmp k => cases h; exact nothing.setPc _
  | ijmp | eijmp | jmp k => obtain ⟨_, ⟨⟩⟩ := requires_eq_next.mp h; exact nothing.setPc _
  | brbs b k | brbc b k =>
    cases h
    unfold branchIf
    split
    · exact nothing.setPc _
    · exact nothing.advance 1
  | cpse d r | sbrc r b | sbrs r b => obtain ⟨_, h⟩ := requires_eq_next.mp h; exact nothing.skipIf h
  | sbic a b | sbis a b => exact (nothing.ioRead _).skipIf h
  | rcall k | icall | eicall | call k =>
    obtain ⟨_, h⟩ := requires_eq_next.mp h; exact Frame.callTo (fun _ ha => ha) rfl h
  | ret =>
    obtain ⟨_, h⟩ := requires_eq_next.mp h
    obtain ⟨x, popped, ⟨⟩⟩ := andThen_eq_next.mp h
    exact (nothing.popPc rfl popped).setPc _
  | reti =>
    obtain ⟨_, h⟩ := requires_eq_next.mp h
    obtain ⟨n, u, popped, rfl⟩ := returnFromInterrupt_eq_next.mp h
    exact ((nothing.popPc rfl popped).setPc _).finishReti head rfl
  | xch d | las d | lac d | lat d =>
    obtain ⟨_, h⟩ := requires_eq_next.mp h; exact nothing.readModifyWrite head head h
  | des k =>
    obtain ⟨_, ⟨⟩⟩ := requires_eq_next.mp h
    exact (nothing.setLowRegs _ lowRegs_listed).advance 1

/-! ## The four families -/

/-- Settles O31, by the frame of every instruction. -/
theorem bitAndXmegaFrame : Obligations.BitAndXmegaFrame := fun _ _ _ _ h => exec_frame h

/-- Settles O32, by the frame of every instruction. -/
theorem transferFrame : Obligations.TransferFrame := fun _ _ _ _ h => exec_frame h

/-- Settles O33, by the frame of every instruction. -/
theorem controlFrame : Obligations.ControlFrame := fun _ _ _ _ h => exec_frame h

/-- The memories are those of `s`. -/
def SameMemories (s t : State) : Prop := t.sram = s.sram ∧ t.io = s.io ∧ t.flash = s.flash

/-- An arithmetic or logic instruction ends with registers, flags and the PC written, and touches no memory. -/
theorem arithmetic_memories {i : Instr} {s t : State} (family : family i = .arithmetic) (h : exec i s = .next t) :
    SameMemories s t := by
  cases i <;> cases family <;> obtain ⟨_, ⟨⟩⟩ := requires_eq_next.mp h <;> exact ⟨rfl, rfl, rfl⟩

/-- Settles O30: the frame of every instruction, no stores listed, and the memories equal as lists. -/
theorem arithmeticFrame : Obligations.ArithmeticFrame := fun i _ _ arith h =>
  ⟨exec_frame h, by cases i <;> cases arith <;> rfl, arithmetic_memories arith h⟩

end Sys2Proof.Machine
end

section
/-! Which instructions a configured machine lacks, and the operand fault of the updating modes (spec/30_encoding.md R138,
R146, spec/42 R229, spec/43 R256). -/

namespace Sys2Proof.Machine

open Sys2Proof

/-! ## No meaning but the check itself raises NotImplemented -/

/-- The result is not the fault of a missing instruction. -/
def NeverMissing {α : Type} (x : Result α) : Prop := ∀ m, x ≠ .fault (.notImplemented m)

namespace NeverMissing

variable {α β : Type}

theorem next (a : α) : NeverMissing (.next a : Result α) := fun _ => nofun

theorem fault {e : Fault} (h : ∀ m, e ≠ .notImplemented m) : NeverMissing (.fault e : Result α) := fun m eq => by
  injection eq with eq
  exact h m eq

theorem andThen {x : Result α} {f : α → Result β} (hx : NeverMissing x) (hf : ∀ a, NeverMissing (f a)) :
    NeverMissing (andThen x f) := by
  cases x
  case next a => exact hf a
  case fault e => exact fault fun m eq => hx m (by rw [eq])
  case refused e => exact fun _ => nofun

theorem memRead (a : Nat) (s : State) : NeverMissing (memRead a s) := by
  unfold Machine.memRead
  split
  case h_5 => exact fault fun _ => nofun
  all_goals exact next _

theorem memWrite (a : Nat) (v : Byte) (s : State) : NeverMissing (memWrite a v s) := by
  unfold Machine.memWrite
  split
  case h_5 => exact fault fun _ => nofun
  all_goals exact next _

theorem push (v : Byte) (s : State) : NeverMissing (push v s) := (memWrite _ _ _).andThen fun _ => next _

theorem pop (s : State) : NeverMissing (pop s) := memRead _ _

theorem pushPc (r : BitVec 22) (s : State) : NeverMissing (pushPc r s) := by
  refine (push _ _).andThen fun _ => (push _ _).andThen fun _ => ?_
  split
  · exact push _ _
  · exact next _

theorem popPc (s : State) : NeverMissing (popPc s) := by
  have top : NeverMissing (popPcTop s) := by
    unfold popPcTop
    split
    · exact pop s
    · exact next _
  exact top.andThen fun _ => (pop _).andThen fun _ => (pop _).andThen fun _ => next _

theorem progWord (w : Nat) (s : State) : NeverMissing (progWord w s) := by
  unfold Machine.progWord
  split
  · exact next _
  · exact fault fun _ => nofun

theorem loadProgram (b : Nat) (d : Reg) (after : State → State) (s : State) :
    NeverMissing (loadProgram b d after s) := by
  refine andThen ?_ fun _ => next _
  unfold progByte
  split
  · exact next _
  · exact fault fun _ => nofun

theorem loadFrom (a : Nat) (d : Reg) (after : State → State) (len : Nat) (s : State) :
    NeverMissing (loadFrom a d after len s) := (memRead _ _).andThen fun _ => next _

theorem storeTo (a : Nat) (v : Byte) (after : State → State) (len : Nat) (s : State) :
    NeverMissing (storeTo a v after len s) := (memWrite _ _ _).andThen fun _ => next _

theorem readModifyWrite (f : Byte → Byte → Byte) (d : Reg) (s : State) : NeverMissing (readModifyWrite f d s) :=
  (memRead _ _).andThen fun _ => (memWrite _ _ _).andThen fun _ => next _

theorem skipIf (cond : Bool) (s : State) : NeverMissing (skipIf cond s) := by
  cases cond
  · exact next _
  · exact (progWord _ _).andThen fun _ => next _

theorem callTo (target len : Nat) (s : State) : NeverMissing (callTo target len s) :=
  (pushPc _ _).andThen fun _ => next _

theorem requiresDisjoint {i : Instr} {r lo : Reg} {k : Result State} (h : NeverMissing k) :
    NeverMissing (requiresDisjoint i r lo k) := by
  unfold Machine.requiresDisjoint
  split
  · exact fault fun _ => nofun
  · exact h

theorem withSpmEffect {s : State} {k : Result State} (h : NeverMissing k) : NeverMissing (withSpmEffect s k) := by
  unfold Machine.withSpmEffect
  split
  · exact fault fun _ => nofun
  · exact h

end NeverMissing

/-- R138: every meaning is the check for a missing instruction, and then something that does not raise NotImplemented. -/
theorem exec_eq_requires (i : Instr) (s : State) : ∃ k, exec i s = requires i s k ∧ NeverMissing k := by
  cases i with
  | lds d k | ldX d | lddY d q | lddZ d q => exact ⟨_, rfl, .loadFrom _ _ _ _ _⟩
  | sts k r | stX r | stdY q r | stdZ q r => exact ⟨_, rfl, .storeTo _ _ _ _ _⟩
  | ldXInc d | ldXDec d | ldYInc d | ldYDec d | ldZInc d | ldZDec d => exact ⟨_, rfl, .requiresDisjoint (.loadFrom _ _ _ _ _)⟩
  | stXInc r | stXDec r | stYInc r | stYDec r | stZInc r | stZDec r => exact ⟨_, rfl, .requiresDisjoint (.storeTo _ _ _ _ _)⟩
  | lpm | lpmZ d | elpm | elpmZ d => exact ⟨_, rfl, .loadProgram _ _ _ _⟩
  | lpmZInc d | elpmZInc d => exact ⟨_, rfl, .requiresDisjoint (.loadProgram _ _ _ _)⟩
  | spm | spmZInc => exact ⟨_, rfl, .withSpmEffect (.next _)⟩
  | push r => exact ⟨_, rfl, (NeverMissing.push _ _).andThen fun _ => .next _⟩
  | pop d => exact ⟨_, rfl, (NeverMissing.pop _).andThen fun _ => .next _⟩
  | cpse d r | sbrc r b | sbrs r b | sbic a b | sbis a b => exact ⟨_, rfl, .skipIf _ _⟩
  | rcall k | icall | eicall | call k => exact ⟨_, rfl, .callTo _ _ _⟩
  | ret | reti => exact ⟨_, rfl, (NeverMissing.popPc _).andThen fun _ => .next _⟩
  | xch d | las d | lac d | lat d => exact ⟨_, rfl, .readModifyWrite _ _ _⟩
  | brk =>
    refine ⟨_, rfl, ?_⟩
    split <;> exact .next _
  | _ => exact ⟨_, rfl, .next _⟩

theorem exec_missing_iff (i : Instr) (s : State) (m : String) :
    exec i s = .fault (.notImplemented m) ↔ implements s.cfg i = false ∧ m = mnemonic i := by
  obtain ⟨k, meaning, never⟩ := exec_eq_requires i s
  rw [meaning]
  cases impl : implements s.cfg i
  case false => rw [requires_not impl]; simp [eq_comm]
  case true => rw [requires_of impl]; simp [never m]

theorem lacks_iff (s : State) (i : Instr) : s.lacks i ↔ implements s.cfg i = false := by
  simp only [State.lacks, exec_missing_iff, exists_and_left, exists_eq, and_true]

/-! ## Which instructions those are, by core, option and register -/

theorem hasRegister_eq_false {c : Config} {r : Reg} : hasRegister c r = false ↔ lacksReg c r := by
  simp [hasRegister, lacksReg]

theorem coreFromAvr2_eq_false {c : Config} : coreFromAvr2 c = false ↔ c.core = .avr1 := by
  simp [coreFromAvr2]

theorem coreClassic_eq_false {c : Config} : coreClassic c = false ↔ c.core ∈ [.avr1, .avrTiny] := by
  cases h : c.core <;> simp [coreClassic, h]

theorem coreClassicPlus_eq_false {c : Config} : coreClassicPlus c = false ↔ c.core ∈ [.avr1, .avr2, .avr3, .avrTiny] := by
  cases h : c.core <;> simp [coreClassicPlus, coreClassic, h]

theorem coreEnhanced_eq_false {c : Config} :
    coreEnhanced c = false ↔ c.core ∈ [.avr1, .avr2, .avr25, .avr3, .avrTiny] := by
  cases h : c.core <;> simp [coreEnhanced, coreClassicPlus, coreClassic, h]

theorem coreHasJmp_eq_false {c : Config} :
    c.coreHasJmp = false ↔ c.core ∈ [.avr1, .avr2, .avr25, .avr4, .avrTiny] := by
  cases h : c.core <;> simp [Config.coreHasJmp, Config.isXmega, h]

theorem isXmega_eq_false {c : Config} : c.isXmega = false ↔ c.core ∉ [.xmega, .xmegaRmw] := by
  cases h : c.core <;> simp [Config.isXmega, h]

theorem coreFromAvr5_eq_false {c : Config} :
    coreFromAvr5 c = false ↔ c.core ∉ [.avr5, .avr6, .xmega, .xmegaRmw] := by
  cases h : c.core <;> simp [coreFromAvr5, Config.isXmega, h]

theorem coreFromAvr6_eq_false {c : Config} : coreFromAvr6 c = false ↔ c.core ∉ [.avr6, .xmega, .xmegaRmw] := by
  cases h : c.core <;> simp [coreFromAvr6, Config.coreHasEijmp, Config.isXmega, h]

/-- R63: every core but AVRtiny has all registers. -/
theorem hasRegister_all {c : Config} (h : c.core ≠ .avrTiny) (l : List Reg) : l.all (hasRegister c) = true :=
  List.all_eq_true.mpr fun r _ => by simp [hasRegister, h]

/-- Instructions that a machine implements under one condition `b`. -/
theorem lacks_of_implements {s : State} {l : List Instr} {b : Bool} {Q : Prop} (same : ∀ i ∈ l, implements s.cfg i = b)
    (lacking : b = false ↔ Q) : ∀ i ∈ l, s.lacks i ↔ Q := fun i hi => by
  rw [lacks_iff, same i hi, lacking]

/-- Instructions that a machine implements by its core under one condition `b`, AVRtiny not among the cores. -/
theorem lacks_of_coreImplements {s : State} {l : List Instr} {b : Bool} {Q : Prop}
    (same : ∀ i ∈ l, coreImplements s.cfg i = b) (lacking : b = false ↔ Q) (tiny : s.cfg.core = .avrTiny → Q) :
    ∀ i ∈ l, s.lacks i ↔ Q := fun i hi => by
  rw [lacks_iff, implements, same i hi]
  by_cases isTiny : s.cfg.core = .avrTiny
  · simp [lacking.mpr (tiny isTiny), tiny isTiny]
  · rw [hasRegister_all isTiny, Bool.and_true, lacking]

/-- Settles O15: the first part is that only the check raises NotImplemented; then group by group, where the conditions of
a group's instructions are the same by computation. -/
theorem missingInstructionFaults : Obligations.MissingInstructionFaults := by
  refine ⟨exec_missing_iff, ?_⟩
  intro s d r k w a a5 b q k6 k7 k12 k22 k4 c
  have tinyIn {l : List Core} (listed : Core.avrTiny ∈ l) (h : c.core = .avrTiny) : c.core ∈ l := h ▸ listed
  have tinyOut {l : List Core} (unlisted : Core.avrTiny ∉ l) (h : c.core = .avrTiny) : c.core ∉ l := h ▸ unlisted
  have single {i : Instr} {Q : Prop} (h : ∀ j ∈ [i], s.lacks j ↔ Q) : s.lacks i ↔ Q := h i List.mem_cons_self
  refine ⟨?twoRegisters, ?oneRegister, ?everywhere, ?stack, ?pointer, ?dispZ, ?dispY, ?classic, ?classicPlus, ?enhanced,
    ?jmp, ?lpm, ?elpm, ?elpmZ, ?brk, ?eijmp, ?spm, ?spmZInc, ?des, ?rmw⟩
  case twoRegisters =>
    refine lacks_of_implements (b := hasRegister c d && (hasRegister c r && true)) (fun i hi => by fin_cases hi <;> rfl) ?_
    rw [Bool.and_true, Bool.and_eq_false_iff, hasRegister_eq_false, hasRegister_eq_false]
  case oneRegister =>
    refine lacks_of_implements (b := hasRegister c d && true) (fun i hi => by fin_cases hi <;> rfl) ?_
    rw [Bool.and_true, hasRegister_eq_false]
  case everywhere =>
    exact fun i hi => (lacks_of_implements (b := true) (Q := False) (fun i hi => by fin_cases hi <;> rfl) (by simp) i hi).mp
  case stack =>
    refine lacks_of_implements (b := coreFromAvr2 c && true) (fun i hi => by fin_cases hi <;> rfl) ?_
    rw [Bool.and_true, coreFromAvr2_eq_false]
  case pointer =>
    refine lacks_of_implements (b := coreFromAvr2 c && (hasRegister c d && true)) (fun i hi => by fin_cases hi <;> rfl) ?_
    rw [Bool.and_true, Bool.and_eq_false_iff, coreFromAvr2_eq_false, hasRegister_eq_false]
  case dispZ =>
    refine lacks_of_implements (b := (coreClassic c || q == 0) && (hasRegister c d && true))
      (fun i hi => by fin_cases hi <;> rfl) ?_
    rw [Bool.and_true, Bool.and_eq_false_iff, Bool.or_eq_false_iff, coreClassic_eq_false, hasRegister_eq_false,
      beq_eq_false_iff_ne, and_comm]
  case dispY =>
    refine lacks_of_implements (b := (coreClassic c || (c.core != .avr1 && q == 0)) && (hasRegister c d && true))
      (fun i hi => by fin_cases hi <;> rfl) ?_
    rw [Bool.and_true, Bool.and_eq_false_iff, Bool.or_eq_false_iff, coreClassic_eq_false, hasRegister_eq_false, ← or_assoc]
    refine or_congr ?_ Iff.rfl
    cases core : c.core <;> simp
  case classic =>
    exact lacks_of_coreImplements (fun i hi => by fin_cases hi <;> rfl) coreClassic_eq_false (tinyIn (by decide))
  case classicPlus =>
    exact lacks_of_coreImplements (fun i hi => by fin_cases hi <;> rfl) coreClassicPlus_eq_false (tinyIn (by decide))
  case enhanced =>
    exact lacks_of_coreImplements (fun i hi => by fin_cases hi <;> rfl) coreEnhanced_eq_false (tinyIn (by decide))
  case jmp =>
    exact lacks_of_coreImplements (fun i hi => by fin_cases hi <;> rfl) coreHasJmp_eq_false (tinyIn (by decide))
  case lpm =>
    refine single (lacks_of_coreImplements (b := c.core != .avrTiny && (c.core != .avr1 || c.avr1HasLpm))
      (fun i hi => by fin_cases hi; rfl) ?_ .inl)
    rw [Bool.and_eq_false_iff, Bool.or_eq_false_iff, bne_eq_false_iff_eq, bne_eq_false_iff_eq]
  case elpm =>
    refine single (lacks_of_coreImplements (b := c.hasRampZ && (c.core == .avr3 || coreFromAvr5 c))
      (fun i hi => by fin_cases hi; rfl) ?_ fun h => .inr (tinyOut (by decide) h))
    rw [Bool.and_eq_false_iff, Bool.or_eq_false_iff, coreFromAvr5_eq_false, beq_eq_false_iff_ne,
      List.mem_cons (b := Core.avr3), not_or]
  case elpmZ =>
    refine lacks_of_coreImplements (b := c.hasRampZ && coreFromAvr5 c) (fun i hi => by fin_cases hi <;> rfl) ?_ fun h =>
      .inr (tinyOut (by decide) h)
    rw [Bool.and_eq_false_iff, coreFromAvr5_eq_false]
  case brk =>
    refine single (lacks_of_implements (b := c.hasBreak && (coreFromAvr5 c || c.core == .avrTiny) && true)
      (fun i hi => by fin_cases hi; rfl) ?_)
    rw [Bool.and_true, Bool.and_eq_false_iff, Bool.or_eq_false_iff, coreFromAvr5_eq_false, beq_eq_false_iff_ne]
    cases core : c.core <;> simp
  case eijmp =>
    refine lacks_of_coreImplements (b := c.hasEind && coreFromAvr6 c) (fun i hi => by fin_cases hi <;> rfl) ?_ fun h =>
      .inr (tinyOut (by decide) h)
    rw [Bool.and_eq_false_iff, coreFromAvr6_eq_false]
  case spm =>
    refine single (lacks_of_coreImplements (b := c.hasSpm && coreClassicPlus c)
      (fun i hi => by fin_cases hi; rfl) ?_ fun h => .inr (tinyIn (by decide) h))
    rw [Bool.and_eq_false_iff, coreClassicPlus_eq_false]
  case spmZInc =>
    refine single (lacks_of_coreImplements (b := c.hasSpm && c.isXmega)
      (fun i hi => by fin_cases hi; rfl) ?_ fun h => .inr (tinyOut (by decide) h))
    rw [Bool.and_eq_false_iff, isXmega_eq_false]
  case des =>
    refine single (lacks_of_coreImplements (b := c.hasDes && c.isXmega)
      (fun i hi => by fin_cases hi; rfl) ?_ fun h => .inr (tinyOut (by decide) h))
    rw [Bool.and_eq_false_iff, isXmega_eq_false]
  case rmw =>
    exact lacks_of_coreImplements (b := c.core == .xmegaRmw) (fun i hi => by fin_cases hi <;> rfl) beq_eq_false_iff_ne
      fun h => by rw [show c.core = .avrTiny from h]; decide

/-! ## The operand fault (R229, R256) -/

theorem requiresDisjoint_fault {i : Instr} {p : Ptr} {r : Reg} {k : Result State} (h : r ∈ p.regs) :
    requiresDisjoint i r p.lo k = .fault (.undefinedOperandCombination (firstWord i)) :=
  if_pos (by simpa [Ptr.regs] using h)

/-- Settles O16: an updating mode checks its operand right after the check for a missing instruction. -/
theorem updatedPointerOperandFaults : Obligations.UpdatedPointerOperandFaults := by
  intro s i p r impl inside form
  rcases form with rfl | rfl | rfl | rfl | ⟨rfl, rfl | rfl⟩
  · cases p <;> exact (requires_of impl).trans (requiresDisjoint_fault inside)
  · cases p <;> exact (requires_of impl).trans (requiresDisjoint_fault inside)
  · cases p <;> exact (requires_of impl).trans (requiresDisjoint_fault inside)
  · cases p <;> exact (requires_of impl).trans (requiresDisjoint_fault inside)
  · exact (requires_of impl).trans (requiresDisjoint_fault (p := .z) inside)
  · exact (requires_of impl).trans (requiresDisjoint_fault (p := .z) inside)

end Sys2Proof.Machine
end

section
/-! Arithmetic: the flags of a subtraction, and what each arithmetic instruction leaves in its registers and flags
(spec/40_arithmetic.md). -/

namespace Sys2Proof.Machine

open Sys2Proof

/-! ## Subtraction as addition of the complement (R161) -/

theorem toInt_not_byte (b : Byte) : (~~~b).toInt = -b.toInt - 1 := by
  have := b.isLt
  simp only [BitVec.toInt_eq_toNat_cond, BitVec.toNat_not]
  split <;> split <;> omega

theorem toNat_subResult (a b : Byte) (c : Bool) :
    ((subResult a b c).toNat : Int) = ((a.toNat : Int) - b.toNat - c.toNat) % 256 := by
  have nonneg := Int.emod_nonneg ((a.toNat : Int) - b.toNat - c.toNat) (by decide : (256 : Int) ≠ 0)
  simp [subResult, BitVec.toNat_ofInt, Int.toNat_of_nonneg nonneg]

theorem subResult_eq_sub (a b : Byte) (c : Bool) : subResult a b c = a - b - (BitVec.ofBool c).setWidth 8 := by
  apply BitVec.eq_of_toNat_eq
  have value := toNat_subResult a b c
  cases c <;> simp [BitVec.toNat_sub] at value ⊢ <;> omega

/-- A borrow in is a missing carry in. -/
theorem subResult_eq_addResult (a b : Byte) (c : Bool) : subResult a b c = addResult a (~~~b) (!c) := by
  rw [subResult_eq_sub, addResult_eq_add]
  cases c <;> simp <;> bv_omega

theorem halfBorrow_eq_not_carry (a b : Byte) (c : Bool) :
    decide (a.toNat % 16 < b.toNat % 16 + c.toNat) = !BitVec.carry 4 a (~~~b) (!c) := by
  rw [← halfCarry_eq_carry, BitVec.toNat_not, ← decide_not]
  have := b.isLt
  cases c <;> simp <;> omega

theorem fullBorrow_eq_not_carry (a b : Byte) (c : Bool) :
    decide (a.toNat < b.toNat + c.toNat) = !BitVec.carry 8 a (~~~b) (!c) := by
  rw [← fullCarry_eq_carry, BitVec.toNat_not, ← decide_not]
  have := b.isLt
  cases c <;> simp <;> omega

/-- The borrow out of bit `i`, from that bit of the operands and of the difference. -/
theorem not_carry_succ_of_subResult (a b : Byte) (c : Bool) {i : Nat} (hi : i < 8) :
    (!BitVec.carry (i + 1) a (~~~b) (!c)) =
      ((!a.getLsbD i && b.getLsbD i) || (b.getLsbD i && (subResult a b c).getLsbD i) ||
        ((subResult a b c).getLsbD i && !a.getLsbD i)) := by
  rw [carry_succ_eq_of_addResult _ _ _ hi, ← subResult_eq_addResult, BitVec.getLsbD_not, decide_eq_true hi, Bool.true_and]
  cases a.getLsbD i <;> cases b.getLsbD i <;> cases (subResult a b c).getLsbD i <;> rfl

/-- The signed difference is a signed sum with the complement. -/
theorem signedDifference_eq_sum (a b : Byte) (c : Bool) :
    a.toInt - b.toInt - c.toNat = a.toInt + (~~~b).toInt + (!c).toNat := by
  rw [toInt_not_byte]
  cases c <;> simp <;> omega

theorem overflows8_sub_eq_signs (a b : Byte) (c : Bool) :
    overflows8 (a.toInt - b.toInt - c.toNat) =
      ((a.getLsbD 7 && !b.getLsbD 7 && !(subResult a b c).getLsbD 7) ||
        (!a.getLsbD 7 && b.getLsbD 7 && (subResult a b c).getLsbD 7)) := by
  have bit : (~~~b).getLsbD 7 = !b.getLsbD 7 := by simp
  rw [signedDifference_eq_sum, overflows8_add_eq_signs, ← subResult_eq_addResult, bit, Bool.not_not]

theorem sign_bmod_xor_overflow {v : Int} (low : -256 ≤ v) (high : v ≤ 255) :
    (decide (v.bmod 256 < 0) ^^ decide (v < -128 ∨ 127 < v)) = decide (v < 0) := by
  simp only [Int.bmod_def, Nat.cast_ofNat]
  by_cases out : v < -128 ∨ 127 < v
  · rw [decide_eq_true out, Bool.xor_true, ← decide_not]
    exact decide_eq_decide.mpr (by split <;> omega)
  · rw [decide_eq_false out, Bool.xor_false]
    exact decide_eq_decide.mpr (by split <;> omega)

/-- S: the sign of the exact difference, whether or not it fits. -/
theorem sign_xor_overflow (a b : Byte) (c : Bool) :
    ((subResult a b c).getLsbD 7 ^^ overflows8 (a.toInt - b.toInt - c.toNat)) =
      decide (a.toInt - b.toInt - c.toNat < 0) := by
  have ha := And.intro a.le_toInt a.toInt_lt
  have hb := And.intro b.le_toInt b.toInt_lt
  have hc := c.toNat_le
  rw [getLsbD_seven_eq_decide_neg, subResult_eq_addResult, toInt_addResult, ← signedDifference_eq_sum, overflows8_eq_decide,
    sign_bmod_xor_overflow (by omega) (by omega)]

/-- Settles O35: a subtraction is an addition of the complement, so a borrow is a missing carry and V the disagreement of
signs; the rest is what `subFlags` writes and keeps. -/
theorem subtractionFlagFormulas : Obligations.SubtractionFlagFormulas := by
  intro sreg a b c k r f v
  have hH : getFlag f .H = !BitVec.carry 4 a (~~~b) (!c) :=
    (getFlag_putHSVNZC_H ..).trans (halfBorrow_eq_not_carry a b c)
  have hC : getFlag f .C = !BitVec.carry 8 a (~~~b) (!c) :=
    (getFlag_putHSVNZC_C ..).trans (fullBorrow_eq_not_carry a b c)
  have hV : getFlag f .V = overflows8 v := getFlag_putHSVNZC_V ..
  have hN : getFlag f .N = r.msb := getFlag_putHSVNZC_N ..
  have hS : getFlag f .S = (getFlag f .N ^^ getFlag f .V) := by rw [hN, hV]; exact getFlag_putHSVNZC_S ..
  have hZ : getFlag f .Z = (decide (r = 0) && (!k || getFlag sreg .Z)) := getFlag_putHSVNZC_Z ..
  refine ⟨toNat_subResult a b c, ?H, ?Hbits, ?C, ?Cbits, ?V, ?Vbits, ?N, hZ, hS,
    getFlag_putHSVNZC_T .., getFlag_putHSVNZC_I .., ?plain⟩
  case H => rw [hH, halfBorrow_eq_not_carry]
  case Hbits => rw [hH, not_carry_succ_of_subResult a b c (by decide)]
  case C => rw [hC, fullBorrow_eq_not_carry]
  case Cbits => rw [hC, not_carry_succ_of_subResult a b c (by decide)]
  case V => rw [hV, overflows8_eq_decide]
  case Vbits => rw [hV, overflows8_sub_eq_signs]
  case N => rw [hN, BitVec.msb_eq_getLsbD_last]
  case plain =>
    rintro rfl rfl
    refine ⟨?_, ?_, ?_⟩
    · rw [hC, ← fullBorrow_eq_not_carry]; rfl
    · rw [hS, hN, hV, BitVec.msb_eq_getLsbD_last, sign_xor_overflow]
      exact decide_eq_decide.mpr (by simp)
    · have zero : r = 0 ↔ a = b := by
        rw [show r = a - b - (BitVec.ofBool false).setWidth 8 from subResult_eq_sub a b false]
        simpa using sub_eq_zero (a := a) (b := b)
      rw [hZ, Bool.not_false, Bool.true_or, Bool.and_true]
      exact decide_eq_decide.mpr zero

/-! ## Addition, subtraction, comparison (R164 to R170, R180 to R184) -/

/-- Settles O36: both instructions end as the addition with their carry-in does. -/
theorem additionResult : Obligations.AdditionResult := by
  intro s d r i c impl instruction a b v
  have ran : exec i s = .next (finishAlu d (addResult a b c) (addFlags s.sreg a b c) s) := by
    rcases instruction with ⟨rfl, rfl⟩ | ⟨rfl, rfl⟩ <;> exact requires_of impl
  obtain ⟨_, hH, _, hC, _, hV, _, hN, hZ, hS, hT, hI⟩ := additionFlagFormulas s.sreg a b c
  refine ⟨_, ran, rfl, ?_, hH, hC, hV, ?_, ?_, hS, hT, hI⟩ <;> rw [finishAlu_reg_same]
  · exact addResult_eq_add a b c
  · exact hN
  · exact hZ

/-- Settles O37: the five instructions end as the subtraction with their operands does. -/
theorem subtractionResult : Obligations.SubtractionResult := by
  intro s d i a b c keep impl instruction v
  have ran : exec i s = .next (finishAlu d (subResult a b c) (subFlags s.sreg a b c keep) s) := by
    rcases instruction with ⟨r, rfl, rfl, rfl, rfl, rfl⟩ | ⟨rfl, rfl, rfl, rfl⟩ | ⟨r, rfl, rfl, rfl, rfl, rfl⟩ |
      ⟨rfl, rfl, rfl, rfl⟩ | ⟨rfl, rfl, rfl, rfl, rfl⟩ <;> exact requires_of impl
  obtain ⟨_, hH, _, hC, _, hV, _, hN, hZ, hS, hT, hI, _⟩ := subtractionFlagFormulas s.sreg a b c keep
  refine ⟨_, ran, rfl, ?_, hH, hC, hV, ?_, ?_, hS, hT, hI⟩ <;> rw [finishAlu_reg_same]
  · exact subResult_eq_sub a b c
  · exact hN
  · exact hZ

theorem subResult_eq_zero_iff (a b : Byte) (c : Bool) : subResult a b c = 0 ↔ a.toNat = (b.toNat + c.toNat) % 256 := by
  have value := toNat_subResult a b c
  have := a.isLt
  rw [← BitVec.toNat_inj, show (0 : Byte).toNat = 0 from rfl]
  omega

/-- Settles O38: the comparisons keep the flags of the difference and nothing else of it; S is the sign of the exact
difference. -/
theorem comparisonResult : Obligations.ComparisonResult := by
  intro s d i a b c keep impl ha instruction
  have ran : exec i s = .next (finishCompare (subFlags s.sreg a b c keep) s) := by
    subst ha
    rcases instruction with ⟨r, rfl, rfl, rfl, rfl⟩ | ⟨r, rfl, rfl, rfl, rfl⟩ | ⟨rfl, rfl, rfl⟩ <;> exact requires_of impl
  obtain ⟨_, hH, _, hC, _, hV, _, hN, hZ, hS, hT, hI, _⟩ := subtractionFlagFormulas s.sreg a b c keep
  rw [decide_eq_decide.mpr (subResult_eq_zero_iff a b c)] at hZ
  refine ⟨_, ran, rfl, fun _ => rfl, hC, ?S, hH, hZ, ?N, ?V, hT, hI⟩
  case S =>
    refine hS.trans ?_
    rw [hN, hV, ← overflows8_eq_decide, sign_xor_overflow]
  case N => exact hN.trans (by rw [subResult_eq_sub])
  case V =>
    have turn : ∀ x y z : Bool, x = (y ^^ z) → z = (x ^^ y) := by decide
    exact turn _ _ _ hS

/-! ## Words, increments (R166, R171 to R173) -/

/-- ADIW: C is the unsigned, V the signed overflow of adding a small constant. -/
theorem adiw_overflows (x : Word) (k : BitVec 6) :
    (!(x + k.setWidth 16).msb && x.msb) = decide (65536 ≤ x.toNat + k.toNat) ∧
      (!x.msb && (x + k.setWidth 16).msb) = decide (32767 < x.toInt + k.toNat) := by
  have := k.isLt
  have := x.isLt
  simp only [BitVec.msb_eq_decide, BitVec.toNat_add, BitVec.toNat_setWidth, ← decide_not, ← Bool.decide_and,
    BitVec.toInt_eq_toNat_cond, decide_eq_decide]
  constructor
  · omega
  · split <;> omega

/-- SBIW: C is the unsigned, V the signed overflow of subtracting a small constant. -/
theorem sbiw_overflows (x : Word) (k : BitVec 6) :
    ((x - k.setWidth 16).msb && !x.msb) = decide (x.toNat < k.toNat) ∧
      (x.msb && !(x - k.setWidth 16).msb) = decide (x.toInt - k.toNat < -32768) := by
  have := k.isLt
  have := x.isLt
  simp only [BitVec.msb_eq_decide, BitVec.toNat_sub, BitVec.toNat_setWidth, ← decide_not, ← Bool.decide_and,
    BitVec.toInt_eq_toNat_cond, decide_eq_decide]
  constructor
  · omega
  · split <;> omega

/-- The pair after a 16-bit operation. -/
theorem finishPair_pair (s : State) (d : Reg) (w : Word) (sreg : Byte) :
    (((s.setPair d w).setSreg sreg).advance 1).pair d = w := State.pair_setPair s d w

/-- Settles O39: C and V of ADIW and SBIW are the unsigned and the signed overflow of a small constant. -/
theorem wordArithmeticResult : Obligations.WordArithmeticResult := by
  intro s d k
  refine ⟨fun impl => ⟨_, requires_of impl, rfl, ?_⟩, fun impl => ⟨_, requires_of impl, rfl, ?_⟩⟩ <;>
    rw [finishPair_pair]
  · obtain ⟨wraps, overflows⟩ := adiw_overflows (s.pair d) k
    exact ⟨rfl, (getFlag_putSVNZC_C ..).trans wraps, (getFlag_putSVNZC_V ..).trans overflows,
      (getFlag_putSVNZC_N ..).trans (BitVec.msb_eq_getLsbD_last _), getFlag_putSVNZC_Z ..,
      by simp [State.flag, adiwFlags], getFlag_putSVNZC_H ..⟩
  · obtain ⟨borrows, overflows⟩ := sbiw_overflows (s.pair d) k
    exact ⟨rfl, (getFlag_putSVNZC_C ..).trans borrows, (getFlag_putSVNZC_V ..).trans overflows,
      (getFlag_putSVNZC_N ..).trans (BitVec.msb_eq_getLsbD_last _), getFlag_putSVNZC_Z ..,
      by simp [State.flag, sbiwFlags], getFlag_putSVNZC_H ..⟩

theorem increment_overflows : ∀ x : Byte, (x + 1 == 0x80) = (x == 0x7F) := by decide

theorem decrement_overflows : ∀ x : Byte, (x - 1 == 0x7F) = (x == 0x80) := by decide

/-- Settles O40: V is the only overflow that a step by one has. -/
theorem incrementResult : Obligations.IncrementResult := by
  intro s d
  refine ⟨fun impl => ⟨_, requires_of impl, rfl, ?_⟩, fun impl => ⟨_, requires_of impl, rfl, ?_⟩⟩ <;>
    rw [finishAlu_reg_same]
  · exact ⟨rfl, (getFlag_putSVNZ_V ..).trans (increment_overflows _),
      (getFlag_putSVNZ_N ..).trans (BitVec.msb_eq_getLsbD_last _), getFlag_putSVNZ_Z ..,
      by simp [State.flag, incFlags], getFlag_putSVNZ_C .., getFlag_putSVNZ_H ..⟩
  · exact ⟨rfl, (getFlag_putSVNZ_V ..).trans (decrement_overflows _),
      (getFlag_putSVNZ_N ..).trans (BitVec.msb_eq_getLsbD_last _), getFlag_putSVNZ_Z ..,
      by simp [State.flag, decFlags], getFlag_putSVNZ_C .., getFlag_putSVNZ_H ..⟩

/-! ## Multiplication (R189 to R195) -/

theorem productUU_eq (a b : Byte) : productUU a b = BitVec.ofInt 16 ((a.toNat : Int) * b.toNat) := by
  rw [productUU, ← Nat.cast_mul, BitVec.ofInt_natCast]

theorem ofInt_mul_two (p : Int) : BitVec.ofInt 16 p <<< 1 = BitVec.ofInt 16 (p * 2 ^ 1) := by
  rw [BitVec.ofInt_mul, ← BitVec.mul_twoPow_eq_shiftLeft]; rfl

/-- `t` is `s` after a multiplication with the product `p`, shifted left by `sh`. -/
def MulDone (s t : State) (p : Int) (sh : Nat) : Prop :=
  t.pc = s.pcAfter 1 ∧ t.pair 0 = BitVec.ofInt 16 (p * 2 ^ sh) ∧ t.flag .C = (BitVec.ofInt 16 p).getLsbD 15 ∧
    t.flag .Z = (t.pair 0 == 0) ∧ ∀ f, f ≠ .C → f ≠ .Z → t.flag f = s.flag f

theorem mulDone_of_flags {s : State} {p : Int} {sh : Nat} {w : Word} {sreg : Byte} (value : w = BitVec.ofInt 16 (p * 2 ^ sh))
    (flags : sreg = putZC s.sreg (w == 0) (BitVec.ofInt 16 p).msb) : MulDone s (finishMul w sreg s) p sh := by
  have pair : (finishMul w sreg s).pair 0 = w := finishPair_pair s 0 w sreg
  subst flags
  exact ⟨rfl, pair.trans value, (getFlag_putZC_C ..).trans (BitVec.msb_eq_getLsbD_last _),
    by rw [pair]; exact getFlag_putZC_Z .., fun f notC notZ => getFlag_putZC _ _ _ f (by simp [notC, notZ])⟩

theorem mulDone (s : State) (p : Int) :
    MulDone s (finishMul (BitVec.ofInt 16 p) (mulFlags s.sreg (BitVec.ofInt 16 p)) s) p 0 :=
  mulDone_of_flags (by simp) rfl

theorem fmulDone (s : State) (p : Int) :
    MulDone s (finishMul (BitVec.ofInt 16 p <<< 1) (fmulFlags s.sreg (BitVec.ofInt 16 p)) s) p 1 :=
  mulDone_of_flags (ofInt_mul_two p) rfl

/-- Settles O43: the three products are what `MUL`, `MULS`, `MULSU` write, shifted left by one for the fractional ones. -/
theorem multiplicationResult : Obligations.MultiplicationResult := by
  intro s d r i p sh impl instruction
  suffices ∃ t, exec i s = .next t ∧ MulDone s t p sh from this
  rcases instruction with ⟨rfl, rfl, rfl⟩ | ⟨rfl, rfl, rfl⟩ | ⟨rfl, rfl, rfl⟩ | ⟨rfl, rfl, rfl⟩ | ⟨rfl, rfl, rfl⟩ |
    ⟨rfl, rfl, rfl⟩
  · exact ⟨_, requires_of impl, productUU_eq _ _ ▸ mulDone s _⟩
  · exact ⟨_, requires_of impl, mulDone s _⟩
  · exact ⟨_, requires_of impl, mulDone s _⟩
  · exact ⟨_, requires_of impl, productUU_eq _ _ ▸ fmulDone s _⟩
  · exact ⟨_, requires_of impl, fmulDone s _⟩
  · exact ⟨_, requires_of impl, fmulDone s _⟩

end Sys2Proof.Machine
end

section
/-! What bits, moves, jumps, branches, skips and SPM leave: one equation or one field each (spec/41, spec/42 sections 1 and 2,
spec/43 section 4, spec/44, spec/45). -/

namespace Sys2Proof.Machine

open Sys2Proof

/-! ## The PC after an operation -/

theorem pcAfter_congr {s t : State} (cfg : t.cfg = s.cfg) (pc : t.pc = s.pc) (n : Nat) : t.pcAfter n = s.pcAfter n := by
  rw [State.pcAfter, State.pcAfter, cfg, pc]

/-- A store leaves the PC alone. -/
theorem memWrite_pc {a : Nat} {v : Byte} {s t : State} (h : memWrite a v s = .next t) : t.pc = s.pc := by
  have device : (deviceWrite a v s).pc = s.pc := by
    rcases deviceWrite_cases a v s with ⟨_, e⟩ | ⟨_, p, e⟩ <;> rw [e] <;> rfl
  rcases memWrite_cases h with ⟨r, _, rfl⟩ | ⟨p, u, _, hu, rfl⟩ | ⟨p, _, _, rfl⟩ | ⟨_, rfl⟩ | ⟨_, rfl⟩
  · rfl
  · rcases cpuWrite_cases hu with ⟨_, rfl⟩ | ⟨_, rfl⟩ | ⟨_, rfl⟩ | ⟨_, _, rfl⟩ | ⟨_, _, rfl⟩ | ⟨_, _, rfl⟩ | ⟨_, _, rfl⟩ |
      ⟨_, _, rfl⟩ <;> rfl
  · exact device
  · exact device
  · rfl

theorem memWrite_pcAfter {a : Nat} {v : Byte} {s t : State} (h : memWrite a v s = .next t) (n : Nat) :
    t.pcAfter n = s.pcAfter n := pcAfter_congr (memWrite_cfg h) (memWrite_pc h) n

theorem ioWrite_pcAfter (a : BitVec 6) (v : Byte) (s : State) (n : Nat) : (ioWrite a v s).pcAfter n = s.pcAfter n :=
  memWrite_pcAfter (memWrite_ioBase a v s) n

theorem ioRead_pcAfter (a : BitVec 6) (s : State) (n : Nat) : (ioRead a s).2.pcAfter n = s.pcAfter n := by
  obtain ⟨p, e, _⟩ := ioRead_state a s
  rw [e]; rfl

/-! ## Bits of SREG and of registers (R200 to R205) -/

theorem getFlag_putBit_flagOfBit (sreg : Byte) (b : BitVec 3) (v : Bool) : getFlag (putBit sreg b.toNat v) (flagOfBit b) = v := by
  rw [putBit_eq_putFlag, getFlag_putFlag, if_pos rfl]

/-- Setting a bit of SREG arms the hold-off exactly when that bit is I and it was clear. -/
theorem sets_I_iff (sreg : Byte) (b : BitVec 3) :
    (getFlag (putBit sreg b.toNat true) .I && !getFlag sreg .I) = (b == 7 && !getFlag sreg .I) := by
  rw [putBit_eq_putFlag, getFlag_putFlag]
  by_cases seven : b = 7
  · rw [seven]; rfl
  · rw [if_neg fun e => seven ((flagOfBit_eq_I b).mp e.symm), Bool.and_not_self, beq_false_of_ne seven, Bool.false_and]

/-- Settles O44: a bit of SREG written by its number is a flag written. -/
theorem flagBitResult : Obligations.FlagBitResult := by
  intro s b d
  refine ⟨⟨_, rfl, rfl, getFlag_putBit_flagOfBit _ b true, ?_⟩, ⟨_, rfl, rfl, getFlag_putBit_flagOfBit _ b false⟩,
    fun impl => ⟨_, requires_of impl, rfl, ?_⟩, fun impl => ⟨_, requires_of impl, rfl, fun j hj => ?_⟩⟩
  · exact congrArg (s.irqHoldoff || ·) (sets_I_iff s.sreg b)
  · exact (getFlag_putFlag ..).trans (if_pos rfl)
  · rw [State.advance_reg, State.reg_setReg_same, getLsbD_putBit _ _ hj]

/-! ## Bits of I/O registers (R202, R203) -/

/-- The read and the write of SBI and CBI on the reference device. -/
theorem ioAt_ioBit {s : State} (a : BitVec 5) (b : BitVec 3) (v : Bool) (reference : s.cfg.ioDevice = .reference)
    (ok : ioOk s) :
    (ioWrite (a.setWidth 6) (putBit (ioRead (a.setWidth 6) s).1 b.toNat v) (ioRead (a.setWidth 6) s).2).ioAt
      (a.toNat + ioBase s.cfg) = putBit (s.ioAt (a.toNat + ioBase s.cfg)) b.toNat v := by
  have width : (a.setWidth 6).toNat = a.toNat := BitVec.toNat_setWidth_of_le (by decide)
  have low : (a.setWidth 6).toNat < 0x38 := by have := a.isLt; omega
  have read : ioRead (a.setWidth 6) s = (s.ioAt (a.toNat + ioBase s.cfg), s) := by
    rw [ioRead_of_device (cpuRead_below low), width, deviceRead, reference]; rfl
  have written := (io_of_device (putBit (s.ioAt (a.toNat + ioBase s.cfg)) b.toNat v) (cpuRead_below (s := s) low)).2
  rw [read, written, width, deviceWrite, reference]
  exact Memory.read_write_same _ _ _ _ ok

/-- Settles O45: both instructions are one read and one write of the I/O register with one bit changed. -/
theorem ioBitResult : Obligations.IoBitResult := by
  intro s a b i v instruction
  have ran : exec i s = .next ((ioWrite (a.setWidth 6) (putBit (ioRead (a.setWidth 6) s).1 b.toNat v)
      (ioRead (a.setWidth 6) s).2).advance 1) := by
    rcases instruction with ⟨rfl, rfl⟩ | ⟨rfl, rfl⟩ <;> rfl
  refine ⟨_, ran, (ioWrite_pcAfter ..).trans (ioRead_pcAfter ..), fun reference ok j hj => ?_⟩
  refine (congrArg (BitVec.getLsbD · j) (ioAt_ioBit a b v reference ok)).trans ?_
  exact getLsbD_putBit _ _ hj

/-! ## System instructions (R206 to R209) -/

theorem deviceWdr_state (s : State) : ∃ p, deviceWdr s = s.setPlatform p ∧ (s.cfg.ioDevice = .reference → deviceWdr s = s) := by
  unfold deviceWdr
  split
  · exact ⟨s.platform, rfl, fun _ => rfl⟩
  · next platform => exact ⟨_, rfl, fun e => by rw [e] at platform; cases platform⟩

/-- Settles O46, case by case of the platform parameters. -/
theorem systemResult : Obligations.SystemResult := by
  intro s
  refine ⟨rfl, ?wdr, ?sleep, fun impl => ⟨fun stop => ?stop, fun nop => ?nop⟩⟩
  case wdr =>
    obtain ⟨p, wdr, keeps⟩ := deviceWdr_state s
    refine ⟨(deviceWdr s).advance 1, rfl, ?_, ?_, fun e => by rw [keeps e]⟩ <;> rw [wdr] <;> rfl
  case sleep =>
    refine ⟨_, rfl, ?_, ?_, fun e => ?_⟩
    · split <;> rfl
    · split <;> rfl
    · rw [if_pos (by rw [sleepEnabled, e])]; rfl
  case stop =>
    refine ⟨s.setRun .stopped, (requires_of impl).trans ?_, rfl, rfl, rfl⟩
    rw [stop]
  case nop =>
    refine (requires_of impl).trans ?_
    rw [nop]

/-! ## Moves, IN and OUT (R215 to R219) -/

/-- Settles O47, by what each move writes. -/
theorem moveResult : Obligations.MoveResult := by
  intro s d r k a
  refine ⟨fun impl => ⟨_, requires_of impl, rfl, State.reg_setReg_same ..⟩,
    fun impl => ⟨_, requires_of impl, rfl, ?_, ?_⟩,
    fun impl => ⟨_, requires_of impl, rfl, State.reg_setReg_same ..⟩,
    fun impl => ⟨_, requires_of impl, ioRead_pcAfter a s 1, State.reg_setReg_same .., rfl⟩,
    fun impl => ⟨_, requires_of impl, ioWrite_pcAfter a (s.reg r) s 1, rfl, by rintro rfl; rfl⟩⟩
  · refine (State.reg_setPair s d d _).trans ?_
    rw [if_neg (Reg.succ_ne d).symm, if_pos rfl]
    exact wordOfBytes_low (s.reg r) (s.reg (r + 1))
  · refine (State.reg_setPair s d (d + 1) _).trans ?_
    rw [if_pos rfl]
    exact wordOfBytes_high (s.reg r) (s.reg (r + 1))

/-! ## SPM (R258, R259) -/

theorem withSpmEffect_reference {s : State} {k : Result State} (h : s.cfg.spmEffect = .reference) :
    withSpmEffect s k = .fault .spmNotModelled := by
  rw [withSpmEffect, h]

theorem withSpmEffect_platform {s : State} {k : Result State} (h : s.cfg.spmEffect = .platform) : withSpmEffect s k = k := by
  rw [withSpmEffect, h]

theorem toNat_rampzZ {s : State} (h : s.cfg.hasRampZ = true) : (rampzZ s).toNat = s.rampz.toNat * 65536 + (s.pair 30).toNat := by
  rw [rampzZ, rampzOrZero, if_pos h, toNat_append_word]

/-- Bits 23:16 of the address RAMPZ:Z moved on. -/
theorem rampzZ_add_high {s : State} (h : s.cfg.hasRampZ = true) (k : BitVec 24) :
    (rampzZ s + k).extractLsb' 16 8 = BitVec.ofNat 8 ((s.rampz.toNat * 65536 + (s.pair 30).toNat + k.toNat) / 65536) := by
  apply BitVec.eq_of_toNat_eq
  rw [BitVec.extractLsb'_toNat, BitVec.toNat_add, toNat_rampzZ h, BitVec.toNat_ofNat, Nat.shiftRight_eq_div_pow]
  omega

theorem bumpZ_pair (s t : State) : (bumpZ s t).pair 30 = s.pair 30 + 2 := by
  unfold bumpZ
  dsimp only
  split <;> exact State.pair_setPair t 30 _

theorem bumpZ_rampz {s t : State} (cfg : t.cfg = s.cfg) (rampz : t.rampz = s.rampz) :
    (bumpZ s t).rampz = if s.cfg.hasRampZ && Config.spmCarriesIntoRampz then
      maskBits s.cfg.rampBits (BitVec.ofNat 8 ((s.rampz.toNat * 65536 + (s.pair 30).toNat + 2) / 65536)) else s.rampz := by
  unfold bumpZ
  dsimp only
  split
  · next carries =>
    have present := (Bool.and_eq_true_iff.mp carries).1
    rw [State.setRampz_rampz, rampzZ_add_high present 2]
    exact congrArg (maskBits · _) (congrArg Config.rampBits cfg)
  · exact rampz

/-- Settles O54: the platform says what is written; Z+ moves the pointer afterwards. -/
theorem spmResult_holds : Obligations.SpmResult := by
  intro s e written
  refine ⟨fun impl => ⟨fun refuse => ?_, fun platform => ?_⟩, fun impl => ⟨fun refuse => ?_, fun platform => ?_⟩⟩
  · exact (requires_of impl).trans (withSpmEffect_reference refuse)
  · exact ⟨_, (requires_of impl).trans (withSpmEffect_platform platform), rfl, rfl, rfl, rfl, rfl, rfl⟩
  · exact (requires_of impl).trans (withSpmEffect_reference refuse)
  · refine ⟨_, (requires_of impl).trans (withSpmEffect_platform platform), ?_, bumpZ_pair s (applySpm s), ?_,
      bumpZ_rampz rfl rfl⟩
    · unfold bumpZ; dsimp only; split <;> rfl
    · unfold bumpZ; dsimp only; split <;> exact ⟨rfl, rfl, rfl⟩

/-! ## Jumps and branches (R265 to R268, R281, R282) -/

/-- A relative target has `PC_BITS` bits. -/
theorem relative_mod (s : State) (k : Int) : s.relative k % 2 ^ s.cfg.pcBits = s.relative k := by
  have pos : (0 : Int) < (2 ^ s.cfg.pcBits : Nat) := by exact_mod_cast Nat.two_pow_pos _
  have below := Int.emod_lt_of_pos ((s.pc.toNat : Int) + 1 + k) pos
  have nonneg := Int.emod_nonneg ((s.pc.toNat : Int) + 1 + k) pos.ne'
  refine Nat.mod_eq_of_lt ?_
  rw [State.relative]
  omega

theorem setPc_relative (s : State) (k : Int) : (s.setPc (s.relative k)).pc = s.pcRelative k := by
  rw [State.setPc_pc, relative_mod]; rfl

theorem flag_flagOfBit (s : State) (b : BitVec 3) : s.flag (flagOfBit b) = s.sreg.getLsbD b.toNat := by
  rw [State.flag, getFlag, bit_flagOfBit]

theorem toNat_eindZ {s : State} (h : s.cfg.hasEind = true) : eindZ s = s.eind.toNat * 65536 + (s.pair 30).toNat := by
  rw [eindZ, eindOrZero, if_pos h, toNat_append_word]

theorem branchIf_pc (cond : Bool) (k : BitVec 7) (s : State) :
    (branchIf cond k s).pc = if cond then s.pcRelative k.toInt else s.pcAfter 1 := by
  cases cond
  · rfl
  · exact setPc_relative s k.toInt

/-- Settles O55: each target is reduced modulo 2^PC_BITS, a relative one already is. -/
theorem jumpBranchResult : Obligations.JumpBranchResult := by
  intro s k12 k22 k7 b
  refine ⟨⟨_, rfl, setPc_relative s _⟩, fun impl => ⟨_, requires_of impl, rfl⟩, fun impl => ⟨_, requires_of impl, ?eijmp⟩,
    fun impl => ⟨_, requires_of impl, rfl⟩, ⟨_, rfl, ?brbs⟩, ⟨_, rfl, ?brbc⟩⟩
  case eijmp =>
    have present : s.cfg.hasEind = true := (Bool.and_eq_true_iff.mp (Bool.and_eq_true_iff.mp impl).1).1
    rw [State.setPc_pc, toNat_eindZ present]
  case brbs => rw [branchIf_pc, flag_flagOfBit]
  case brbc =>
    rw [branchIf_pc, flag_flagOfBit]
    cases s.sreg.getLsbD b.toNat <;> rfl

/-! ## Skips (R275 to R280) -/

/-- Settles O56: each skip is `skipIf` on the state after its test, which changes at most the platform's own state. -/
theorem skipResult : Obligations.SkipResult := by
  intro s d r a b i cond impl instruction
  have ran : ∃ p, exec i s = skipIf cond (s.setPlatform p) := by
    obtain ⟨p, read, _⟩ := ioRead_state (a.setWidth 6) s
    rcases instruction with ⟨rfl, rfl⟩ | ⟨rfl, rfl⟩ | ⟨rfl, rfl⟩ | ⟨rfl, rfl⟩ | ⟨rfl, rfl⟩
    · exact ⟨s.platform, requires_of impl⟩
    · exact ⟨s.platform, requires_of impl⟩
    · exact ⟨s.platform, requires_of impl⟩
    · exact ⟨p, by rw [← read]; exact requires_of impl⟩
    · exact ⟨p, by rw [← read]; exact requires_of impl⟩
  obtain ⟨p, ran⟩ := ran
  rw [ran]
  refine ⟨?_, ?_, ?_⟩
  · rintro rfl; exact ⟨_, rfl, rfl⟩
  · rintro rfl w next
    exact ⟨_, skipIf_eq_next.mpr (.inr ⟨w, rfl, next, rfl⟩), rfl⟩
  · rintro rfl beyond
    rw [skipIf, if_pos rfl, show progWord ((s.setPlatform p).nextPc 1) (s.setPlatform p) = _ from progWord_of_le beyond]
    rfl

end Sys2Proof.Machine
end

section
/-! Calls, returns and interrupts: what they leave, and that a return undoes a call and an interrupt entry (spec/46_call.md,
spec/60_exceptions.md section 3). -/

namespace Sys2Proof.Machine

open Sys2Proof

/-! ## Calls (R290 to R293) -/

theorem toNat_pcRelative {s : State} (h : s.cfg.pcBits ≤ 22) (k : Int) : (s.pcRelative k).toNat = s.relative k := by
  rw [← setPc_relative, toNat_setPc h, relative_mod]

theorem pcBits_le {c : Config} (h : c.widthsOk = true) : c.pcBits ≤ 22 := by
  obtain ⟨h | h, _⟩ := widths_of_ok h <;> omega

/-- What is pushed by a call that completes: the bytes of the return address in SRAM (R95). -/
theorem pushed_bytes {s t : State} {r : BitVec 22} (inv : Invariant s) (h : s.cfg.widthsOk = true) (hs : stackInSram s)
    (pushed : pushPc r s = .next t) :
    OnlyStack s t ∧ t.sp.toNat = s.spMinus (pcBytes s.cfg) ∧ t.sramAt (s.spMinus 0) = r.extractLsb' 0 8 ∧
      t.sramAt (s.spMinus 1) = r.extractLsb' 8 8 ∧
      (s.cfg.pcBits = 22 → t.sramAt (s.spMinus 2) = (r.extractLsb' 16 6).setWidth 8) ∧
      ∀ a, a ∉ callStores s → t.sramAt a = s.sramAt a := by
  obtain ⟨_, hsp, _, _, ok, _, _⟩ := inv
  obtain ⟨t', pushed', layout⟩ := pushPc_of_sram r ok hsp h hs
  obtain rfl : t' = t := by rw [pushed] at pushed'; cases pushed'; rfl
  exact layout

/-- Settles O57: each call is `callTo` its target; the pushes complete where the stack is mapped. -/
theorem callResult : Obligations.CallResult := by
  intro s k12 k22 i target n inv h impl instruction hm
  have ran : exec i s = callTo target n s := by
    rcases instruction with ⟨rfl, rfl, rfl⟩ | ⟨rfl, rfl, rfl⟩ | ⟨rfl, rfl, rfl⟩ | ⟨rfl, rfl, rfl⟩
    · rw [toNat_pcRelative (pcBits_le h)]; exact requires_of impl
    · exact requires_of impl
    · rw [← toNat_eindZ (Bool.and_eq_true_iff.mp (Bool.and_eq_true_iff.mp impl).1).1]; exact requires_of impl
    · exact requires_of impl
  obtain ⟨t, pushed, cfg, sp⟩ := pushPc_of_mapped (s.pcAfter n) inv.2.1 h hm
  refine ⟨_, ran.trans (callTo_eq_next.mpr ⟨t, pushed, rfl⟩), by rw [State.setPc_pc, cfg], sp, fun hs => ?_⟩
  obtain ⟨_, _, b0, b1, b2, _⟩ := pushed_bytes inv h hs pushed
  exact ⟨b0, b1, b2⟩

/-! ## Returns (R294, R295) -/

theorem finishReti_pc (s : State) : (finishReti s).pc = s.pc := by
  rcases finishReti_cases s with ⟨v, e⟩ | ⟨p, e⟩ <;> rw [e] <;> rfl

theorem finishReti_sp (s : State) : (finishReti s).sp = s.sp := by
  rcases finishReti_cases s with ⟨v, e⟩ | ⟨p, e⟩ <;> rw [e] <;> rfl

theorem finishReti_reg (s : State) (r : Reg) : (finishReti s).reg r = s.reg r := by
  rcases finishReti_cases s with ⟨v, e⟩ | ⟨p, e⟩ <;> rw [e] <;> rfl

theorem finishReti_sramAt (s : State) (a : Nat) : (finishReti s).sramAt a = s.sramAt a := by
  rcases finishReti_cases s with ⟨v, e⟩ | ⟨p, e⟩ <;> rw [e] <;> rfl

theorem finishReti_irqHoldoff (s : State) : (finishReti s).irqHoldoff = true := rfl

theorem irqReti_flag (s : State) (f : Flag) : (irqReti s).flag f = s.flag f := by
  unfold irqReti
  split <;> rfl

theorem finishReti_flag (s : State) (f : Flag) :
    (finishReti s).flag f = if f = .I then !s.cfg.isXmega || s.flag .I else s.flag f := by
  unfold finishReti
  dsimp only
  rw [State.setHoldoff_flag]
  cases s.cfg.isXmega
  · rw [if_neg (by decide), State.setSreg_flag, getFlag_putFlag]; rfl
  · rw [if_pos rfl, irqReti_flag]
    split
    · next isI => rw [isI]; rfl
    · rfl

/-- The popped bytes as a value of the PC: bits above it dropped. -/
theorem poppedPc_mod {s : State} :
    (s.cfg.pcBits = 16 → poppedPc s % 2 ^ s.cfg.pcBits = (s.sramAt (s.spPlus 1)).toNat * 256 + (s.sramAt (s.spPlus 2)).toNat) ∧
    (s.cfg.pcBits = 22 → poppedPc s % 2 ^ s.cfg.pcBits = (s.sramAt (s.spPlus 1)).toNat % 64 * 65536 +
      (s.sramAt (s.spPlus 2)).toNat * 256 + (s.sramAt (s.spPlus 3)).toNat) := by
  have b1 := (s.sramAt (s.spPlus 1)).isLt
  have b2 := (s.sramAt (s.spPlus 2)).isLt
  have b3 := (s.sramAt (s.spPlus 3)).isLt
  refine ⟨fun narrow => ?_, fun wide => ?_⟩
  · rw [poppedPc, if_neg (by omega), narrow]; omega
  · rw [poppedPc, if_pos wide, wide]; omega

/-- Settles O58: both instructions pop the PC; RETI then does what `finishReti` says. -/
theorem returnResult : Obligations.ReturnResult := by
  intro s i inv h impl instruction hm
  obtain ⟨n, p, popped⟩ := popPc_of_mapped h hm
  have sp : (s.setSp (s.spPlus (pcBytes s.cfg))).sp.toNat = s.spPlus (pcBytes s.cfg) :=
    (toNat_setSp (spBits_le h) _).trans (Nat.mod_mod _ _)
  have pc (hs : ∀ a ∈ popAddresses s, isSram s.cfg a = true) : n % 2 ^ s.cfg.pcBits = poppedPc s % 2 ^ s.cfg.pcBits := by
    have inSram := popPc_of_isSram h hs
    rw [popped] at inSram
    injection inSram with pair
    rw [(Prod.mk.inj pair).1]
  obtain ⟨narrow, wide⟩ := poppedPc_mod (s := s)
  rcases instruction with rfl | rfl
  · refine ⟨_, (requires_of impl).trans (andThen_eq_next.mpr ⟨_, popped, rfl⟩), sp, nofun, fun _ => ⟨rfl, rfl⟩, fun hs => ?_⟩
    rw [← pc hs] at narrow wide
    exact ⟨fun e => (toNat_setPc (pcBits_le h) n).trans (narrow e), fun e => (toNat_setPc (pcBits_le h) n).trans (wide e)⟩
  · refine ⟨_, (requires_of impl).trans (returnFromInterrupt_eq_next.mpr ⟨n, _, popped, rfl⟩), ?_,
      fun _ => ⟨rfl, (finishReti_flag _ .I).trans (if_pos rfl)⟩, nofun, fun hs => ?_⟩
    · rw [finishReti_sp]; exact sp
    · rw [← pc hs] at narrow wide
      rw [finishReti_pc]
      exact ⟨fun e => (toNat_setPc (pcBits_le h) n).trans (narrow e), fun e => (toNat_setPc (pcBits_le h) n).trans (wide e)⟩

/-! ## A return right after a call -/

/-- R95: after the push of an address, popping in a state with the same SP and SRAM gives it back, with SP where it was. -/
theorem popPc_after_pushPc {s t u : State} {r : BitVec 22} (inv : Invariant s) (h : s.cfg.widthsOk = true)
    (hs : stackInSram s) (narrow : r.toNat < 2 ^ s.cfg.pcBits) (pushed : pushPc r s = .next u) (cfg : t.cfg = u.cfg)
    (sp : t.sp = u.sp) (sram : t.sram = u.sram) : popPc t = .next (r.toNat, t.setSp s.sp.toNat) := by
  obtain ⟨only, spu, b0, b1, b2, _⟩ := pushed_bytes inv h hs pushed
  have cfgu : u.cfg = s.cfg := by rw [only]
  have same (a : Nat) : t.sramAt a = u.sramAt a := by rw [State.sramAt, State.sramAt, sram]
  exact popPc_of_pushed inv.2.1 h hs narrow (cfg.trans cfgu) (by rw [sp, spu]) (by rw [same, b0]) (by rw [same, b1])
    fun wide => by rw [same, b2 wide]

theorem setSp_same {s t : State} (inv : Invariant s) (cfg : t.cfg = s.cfg) : (t.setSp s.sp.toNat).sp = s.sp := by
  rw [State.setSp_sp, cfg, Nat.mod_eq_of_lt inv.2.1, BitVec.ofNat_toNat]
  exact BitVec.setWidth_eq _

theorem setPc_same {t : State} {r : BitVec 22} (narrow : r.toNat < 2 ^ t.cfg.pcBits) : (t.setPc r.toNat).pc = r := by
  rw [State.setPc_pc, Nat.mod_eq_of_lt narrow, BitVec.ofNat_toNat]
  exact BitVec.setWidth_eq _

/-- A core with calls has returns. -/
theorem implements_ret_of_core {c : Config} (h : c.core ≠ .avr1) :
    implements c .ret = true ∧ implements c .reti = true :=
  have fromAvr2 : coreFromAvr2 c = true := bne_iff_ne.mpr h
  ⟨Bool.and_eq_true_iff.mpr ⟨fromAvr2, rfl⟩, Bool.and_eq_true_iff.mpr ⟨fromAvr2, rfl⟩⟩

theorem coreImplements_of_implements {c : Config} {i : Instr} (h : implements c i = true) : coreImplements c i = true :=
  (Bool.and_eq_true_iff.mp h).1

/-- What a call that completes has done. -/
theorem call_eq_next {s t : State} {i : Instr} {n : Nat} (executed : exec i s = .next t)
    (instruction : (∃ k, i = .rcall k) ∧ n = 1 ∨ i = .icall ∧ n = 1 ∨ i = .eicall ∧ n = 1 ∨ (∃ k, i = .call k) ∧ n = 2) :
    s.cfg.core ≠ .avr1 ∧ ∃ target, callTo target n s = .next t := by
  rcases instruction with ⟨⟨k, rfl⟩, rfl⟩ | ⟨rfl, rfl⟩ | ⟨rfl, rfl⟩ | ⟨⟨k, rfl⟩, rfl⟩ <;>
    obtain ⟨impl, called⟩ := requires_eq_next.mp executed <;> refine ⟨?_, _, called⟩
  · exact bne_iff_ne.mp (coreImplements_of_implements impl)
  · exact bne_iff_ne.mp (coreImplements_of_implements impl)
  · have core : s.cfg.coreHasEijmp = true := (Bool.and_eq_true_iff.mp (coreImplements_of_implements impl)).2
    exact fun avr1 => by simp [Config.coreHasEijmp, Config.isXmega, avr1] at core
  · have core : s.cfg.coreHasJmp = true := coreImplements_of_implements impl
    exact fun avr1 => by simp [Config.coreHasJmp, Config.isXmega, avr1] at core

/-- Settles O59: between the call and RET nothing touches SP or the pushed bytes. -/
theorem callThenReturn : Obligations.CallThenReturn := by
  intro s t i n inv h hs instruction executed
  obtain ⟨core, target, called⟩ := call_eq_next executed instruction
  obtain ⟨u, pushed, rfl⟩ := callTo_eq_next.mp called
  obtain ⟨only, _, _, _, _, keep⟩ := pushed_bytes inv h hs pushed
  have cfg : u.cfg = s.cfg := by rw [only]
  have narrow : (s.pcAfter n).toNat < 2 ^ s.cfg.pcBits := toNat_ofNat_mod_lt 22 _ _
  have popped := popPc_after_pushPc (t := u.setPc target) inv h hs narrow pushed rfl rfl rfl
  have impl : implements (u.setPc target).cfg .ret = true := (implements_ret_of_core (by rwa [State.setPc_cfg, cfg])).1
  refine ⟨_, (requires_of impl).trans (andThen_eq_next.mpr ⟨_, popped, rfl⟩), setPc_same ?_, setSp_same inv cfg, ?_, ?_, keep⟩
  · rwa [State.setSp_cfg, State.setPc_cfg, cfg]
  · rw [only]; rfl
  · intro r; rw [only]; rfl

/-! ## Interrupts (R328, R295) -/

/-- A push in SRAM, whatever the widths: SRAM and SP, and nothing else. -/
theorem push_only {s : State} (v : Byte) (hs : isSram s.cfg s.sp.toNat = true) :
    ∃ t, push v s = .next t ∧ OnlyStack s t ∧ t.sp = (s.setSp (spBelow s)).sp :=
  ⟨_, push_eq_next.mpr ⟨_, memWrite_sram v (place_of_isSram hs), rfl⟩, rfl, rfl⟩

theorem pushPc_only {s : State} (r : BitVec 22) (hs : stackInSram s) : ∃ t, pushPc r s = .next t ∧ OnlyStack s t := by
  unfold stackInSram callStores at hs
  obtain ⟨s1, h1, o1, p1⟩ := push_only (r.extractLsb' 0 8) (hs s.sp.toNat (by dsimp only; split <;> simp))
  have c1 : s1.cfg = s.cfg := by rw [o1]
  obtain ⟨s2, h2, o2, p2⟩ := push_only (s := s1) (r.extractLsb' 8 8)
    (by rw [c1, p1]; exact hs _ (by dsimp only; split <;> simp))
  have c2 : s2.cfg = s.cfg := by rw [o2, c1]
  by_cases wide : s.cfg.pcBits = 22
  · have e2 : s2.sp = ((s.setSp (spBelow s)).setSp (spBelow (s.setSp (spBelow s)))).sp := by
      rw [p2, Frame.spBelow_congr (s := s.setSp (spBelow s)) c1 p1, State.setSp_sp, c1]; rfl
    obtain ⟨s3, h3, o3, _⟩ := push_only (s := s2) ((r.extractLsb' 16 6).setWidth 8)
      (by rw [c2, e2]; exact hs _ (by dsimp only; rw [if_pos wide]; simp))
    exact ⟨s3, pushPc_eq_next.mpr ⟨s1, s2, h1, h2, by rwa [if_pos wide]⟩, o1.trans (o2.trans o3)⟩
  · exact ⟨s2, pushPc_eq_next.mpr ⟨s1, s2, h1, h2, by rw [if_neg wide]⟩, o1.trans o2⟩

/-- R323: with the reference `Irq` an acknowledgement changes the list of requests. -/
theorem acknowledge_reference {s : State} (h : s.cfg.irq = .reference) (n : Nat) :
    acknowledge n s = s.setPending (if s.cfg.irqClearOnEntry.contains n then s.irqPending.filter (· != n) else s.irqPending) := by
  unfold acknowledge
  rw [h]
  dsimp only
  split <;> rfl

/-- R328: I after an interrupt entry. -/
theorem clearIOnEntry_flag (s : State) (f : Flag) :
    (clearIOnEntry s).flag f = if f = .I then s.cfg.isXmega && s.flag .I else s.flag f := by
  unfold clearIOnEntry
  cases s.cfg.isXmega
  · rw [if_neg (by decide), State.setSreg_flag, getFlag_putFlag]; rfl
  · rw [if_pos rfl]
    split
    · next isI => rw [isI]; rfl
    · rfl

/-- R328: an interrupt entry writes at most SREG before the acknowledgement. -/
theorem clearIOnEntry_eq (s : State) : clearIOnEntry s = s.setSreg (clearIOnEntry s).sreg := by
  unfold clearIOnEntry
  split <;> rfl

/-- The state after an interrupt entry with the reference interrupt source. -/
def entered (n : Nat) (u : State) : State :=
  ((clearIOnEntry u).setPending
    (if u.cfg.irqClearOnEntry.contains n then u.irqPending.filter (· != n) else u.irqPending)).setRun .running

theorem entered_of_reference {u : State} (h : u.cfg.irq = .reference) (n : Nat) :
    (acknowledge n (clearIOnEntry u)).setRun .running = entered n u := by
  have cfg : (clearIOnEntry u).cfg = u.cfg := by rw [clearIOnEntry_eq]; rfl
  have pending : (clearIOnEntry u).irqPending = u.irqPending := by rw [clearIOnEntry_eq]; rfl
  rw [acknowledge_reference (by rw [cfg, h]), cfg, pending]; rfl

/-- An interrupt entry changes, beside the stack, SREG, the requests and the run state. -/
theorem entered_eq (n : Nat) (u : State) :
    entered n u = { u with
      sreg := (clearIOnEntry u).sreg
      irqPending := if u.cfg.irqClearOnEntry.contains n then u.irqPending.filter (· != n) else u.irqPending
      run := .running } := by
  rw [entered, clearIOnEntry_eq]; rfl

theorem entered_flag (n : Nat) (u : State) (f : Flag) :
    (entered n u).flag f = if f = .I then u.cfg.isXmega && u.flag .I else u.flag f := clearIOnEntry_flag u f

/-- Settles O12: after the push the entry changes what `entered` says, and the PC. -/
theorem interruptEntry : Obligations.InterruptEntry := by
  intro s n core irq vector hs
  obtain ⟨u, pushed, only⟩ := pushPc_only s.pc hs
  have cfg : u.cfg = s.cfg := by rw [only]
  have taken : takeInterrupt n s = .next ((entered n u).setPc (s.cfg.resetVector + n * s.cfg.vectorStride)) := by
    refine takeInterrupt_eq_next.mpr ⟨core, u, _, pushed, rfl, ?_⟩
    rw [entered_of_reference (by rw [cfg, irq]), vectorAddress, show (entered n u).cfg = s.cfg by rw [entered_eq, cfg], vector]
  have flags (f : Flag) : u.flag f = s.flag f := by rw [only]; rfl
  refine ⟨u, _, pushed, taken, ?_, ?_, ?_, fun f notI => ?_, ?_, rfl, ?_⟩
  · rw [entered_eq]; rfl
  · rw [entered_eq]; rfl
  · rw [State.setPc_flag, entered_flag, if_pos rfl, cfg, flags]
  · rw [State.setPc_flag, entered_flag, if_neg notI, flags]
  · rw [State.setPc_pc, entered_eq, cfg]
  · rw [entered_eq, only]
    exact ⟨rfl, fun _ => rfl, rfl, rfl, rfl, rfl, rfl⟩

/-- Settles O13: the entry changes neither SP nor SRAM after its push, so RETI pops what was pushed. -/
theorem interruptThenReti : Obligations.InterruptThenReti := by
  intro s t n inv h notXmega irq hs taken
  obtain ⟨core, u, v, pushed, rfl, rfl⟩ := takeInterrupt_eq_next.mp taken
  obtain ⟨only, _, _, _, _, keep⟩ := pushed_bytes inv h hs pushed
  have cfg : u.cfg = s.cfg := by rw [only]
  rw [entered_of_reference (by rw [cfg, irq])]
  generalize vectorAddress (entered n u) n = target
  have cfgt : ((entered n u).setPc target).cfg = s.cfg := by rw [entered_eq, ← cfg]; rfl
  have narrow : s.pc.toNat < 2 ^ s.cfg.pcBits := inv.1
  have popped := popPc_after_pushPc (t := (entered n u).setPc target) inv h hs narrow pushed
    (by rw [entered_eq]; rfl) (by rw [entered_eq]; rfl) (by rw [entered_eq]; rfl)
  refine ⟨_, (requires_of (by rw [cfgt]; exact (implements_ret_of_core core).2)).trans
    (returnFromInterrupt_eq_next.mpr ⟨_, _, popped, rfl⟩), ?_, ?_, ?_, rfl, fun f notI => ?_, fun r => ?_, fun a ha => ?_⟩
  · rw [finishReti_pc]; exact setPc_same (by rwa [State.setSp_cfg, cfgt])
  · rw [finishReti_sp]; exact setSp_same inv cfgt
  · rw [finishReti_flag, if_pos rfl, State.setPc_cfg, State.setSp_cfg, cfgt, notXmega]; rfl
  · rw [finishReti_flag, if_neg notI, State.setPc_flag, State.setSp_flag, State.setPc_flag, entered_flag, if_neg notI, only]
    rfl
  · rw [finishReti_reg, entered_eq, only]; rfl
  · rw [finishReti_sramAt, ← keep a ha, entered_eq]; rfl

end Sys2Proof.Machine
end

section
/-! Loads and stores through every addressing mode, the stack transfers, the loads of program memory and the XMEGA
read-modify-write instructions (spec/42_transfer_data.md, spec/43_transfer_program_memory.md, spec/47_xmega_rmw_des.md). -/

namespace Sys2Proof.Machine

open Sys2Proof

/-! ## Addresses (R92) -/

theorem directAddr_eq (k : Word) (s : State) :
    directAddr k s = (if s.cfg.hasRampD then s.rampd.toNat * 65536 else 0) + k.toNat := by
  unfold directAddr
  split
  · exact toNat_append_word _ _
  · exact (Nat.zero_add _).symm

/-- R92: the address through a pointer and the modulus of its arithmetic, for each pointer. -/
theorem dataAddr_x (s : State) :
    dataAddr .x s = (if s.cfg.hasRampX then s.rampx.toNat * 65536 else 0) + (s.pair 26).toNat :=
  (dataAddr_of_parts (port := 0x39) (.inl ⟨rfl, rfl, rfl, rfl, rfl⟩)).1

theorem dataAddr_z (s : State) :
    dataAddr .z s = (if s.cfg.hasRampZ && s.cfg.rampzForData then s.rampz.toNat * 65536 else 0) + (s.pair 30).toNat :=
  (dataAddr_of_parts (port := 0x3B) (.inr (.inr ⟨rfl, rfl, rfl, rfl, rfl⟩))).1

theorem dispAddr_of_parts {s : State} {p : Ptr} {ramp : Byte} {port : BitVec 6} {ext : Bool} {low : Word}
    (h : pointerParts s p ramp port ext low) (q : BitVec 6) :
    dispAddr p q s = if ext then (ramp.toNat * 65536 + low.toNat + q.toNat) % 2 ^ 24 else (low.toNat + q.toNat) % 2 ^ 16 := by
  obtain ⟨address, modulus, _, _⟩ := dataAddr_of_parts h
  rw [dispAddr, address, modulus]
  cases ext
  · simp only [addressOf, addressModulus, Bool.false_eq_true, if_false, Nat.zero_add]
  · simp only [addressOf, addressModulus, if_true]

theorem dispAddr_y (q : BitVec 6) (s : State) :
    dispAddr .y q s = if s.cfg.hasRampY then (s.rampy.toNat * 65536 + (s.pair 28).toNat + q.toNat) % 2 ^ 24
      else ((s.pair 28).toNat + q.toNat) % 2 ^ 16 :=
  dispAddr_of_parts (port := 0x3A) (.inr (.inl ⟨rfl, rfl, rfl, rfl, rfl⟩)) q

theorem dispAddr_z (q : BitVec 6) (s : State) :
    dispAddr .z q s = if s.cfg.hasRampZ && s.cfg.rampzForData then
      (s.rampz.toNat * 65536 + (s.pair 30).toNat + q.toNat) % 2 ^ 24 else ((s.pair 30).toNat + q.toNat) % 2 ^ 16 :=
  dispAddr_of_parts (port := 0x3B) (.inr (.inr ⟨rfl, rfl, rfl, rfl, rfl⟩)) q

theorem incAddr_of_parts {s : State} {p : Ptr} {ramp : Byte} {port : BitVec 6} {ext : Bool} {low : Word}
    (h : pointerParts s p ramp port ext low) : incAddr p s = (addressOf ext ramp low + 1) % addressModulus ext := by
  obtain ⟨address, modulus, _, _⟩ := dataAddr_of_parts h
  rw [incAddr, address, modulus]

theorem decAddr_of_parts {s : State} {p : Ptr} {ramp : Byte} {port : BitVec 6} {ext : Bool} {low : Word}
    (h : pointerParts s p ramp port ext low) :
    decAddr p s = (addressOf ext ramp low + (addressModulus ext - 1)) % addressModulus ext := by
  obtain ⟨address, modulus, _, _⟩ := dataAddr_of_parts h
  rw [decAddr, address, modulus]

/-! ## The pointer written back (R226, R227, R233, R234) -/

/-- What a pointer written back leaves alone: registers outside it, and every other field but its RAMP register. -/
theorem setPtr_reg_other (p : Ptr) (n : Nat) (s : State) {r : Reg} (h : r ∉ p.regs) : (setPtr p n s).reg r = s.reg r := by
  simp only [Ptr.regs, List.mem_cons, List.not_mem_nil, or_false, not_or] at h
  have pair : (s.setPair p.lo (BitVec.ofNat 16 n)).reg r = s.reg r := by
    rw [State.reg_setPair, if_neg h.2, if_neg h.1]
  unfold setPtr
  dsimp only
  split
  · exact Eq.trans (by cases p <;> rfl) pair
  · exact pair

theorem setPtr_pcAfter (p : Ptr) (n : Nat) (s : State) (k : Nat) : (setPtr p n s).pcAfter k = s.pcAfter k := by
  unfold setPtr
  dsimp only
  split <;> cases p <;> rfl

/-- The fields of `s` that no pointer touches. -/
theorem setPtr_fields (p : Ptr) (n : Nat) (s : State) :
    (setPtr p n s).cfg = s.cfg ∧ (setPtr p n s).sreg = s.sreg ∧ (setPtr p n s).sp = s.sp ∧
      (setPtr p n s).rampd = s.rampd ∧ (setPtr p n s).eind = s.eind ∧ (setPtr p n s).io = s.io ∧
      (setPtr p n s).sram = s.sram ∧ (setPtr p n s).irqHoldoff = s.irqHoldoff := by
  unfold setPtr
  dsimp only
  split <;> cases p <;> exact ⟨rfl, rfl, rfl, rfl, rfl, rfl, rfl, rfl⟩

theorem setPtr_ramp_other {p q : Ptr} (h : q ≠ p) (n : Nat) (s : State) : q.ramp (setPtr p n s) = q.ramp s := by
  unfold setPtr
  dsimp only
  split <;> cases p <;> cases q <;> first | rfl | exact absurd rfl h

/-- R226: bits 23:16 in the RAMP register, its implemented ones. -/
theorem setPtr_ramp_toNat {p : Ptr} {n : Nat} {s : State} (ext : p.extended s.cfg = true) (h : n < 2 ^ 24) :
    (p.ramp (setPtr p n s)).toNat = n / 65536 % 2 ^ s.cfg.rampBits := by
  rw [setPtr_ramp, if_pos ext, toNat_maskBits, BitVec.toNat_ofNat, Nat.mod_eq_of_lt (a := n / 65536) (by omega)]

theorem ramp_advance (p : Ptr) (s : State) (n : Nat) : p.ramp (s.advance n) = p.ramp s := by cases p <;> rfl

theorem ramp_setReg (p : Ptr) (s : State) (r : Reg) (v : Byte) : p.ramp (s.setReg r v) = p.ramp s := by cases p <;> rfl

theorem ramp_setPlatform (p : Ptr) (s : State) (n : Nat) : p.ramp (s.setPlatform n) = p.ramp s := by cases p <;> rfl

/-! ## Loads (R224 to R228) -/

theorem memRead_of_mapped {s : State} {a : Nat} (h : mapped s.cfg a = true) :
    ∃ v p, memRead a s = .next (v, s.setPlatform p) ∧ s.dataByte a = some v := by
  obtain ⟨v, t, read, byte⟩ := memRead_complete h
  obtain ⟨p, rfl, _⟩ := memRead_state read
  exact ⟨v, p, read, byte⟩

/-- A load at a mapped address. -/
theorem loadFrom_of_mapped {s : State} {a : Nat} (h : mapped s.cfg a = true) (d : Reg) (after : State → State) (len : Nat) :
    ∃ v p, s.dataByte a = some v ∧
      loadFrom a d after len s = .next ((after ((s.setPlatform p).setReg d v)).advance len) := by
  obtain ⟨v, p, read, byte⟩ := memRead_of_mapped h
  exact ⟨v, p, byte, loadFrom_eq_next.mpr ⟨v, _, read, rfl⟩⟩

theorem loadFrom_of_nothing {s : State} {a : Nat} (h : place s.cfg a = .nothing) (d : Reg) (after : State → State)
    (len : Nat) : loadFrom a d after len s = .fault (.dataOutOfRange a) := by
  rw [loadFrom, memRead_nothing h]; rfl

/-- Settles O48: each instruction is `loadFrom` its address with no pointer written back. -/
theorem loadResult : Obligations.LoadResult := by
  intro s d k q i a n impl instruction
  have ran : exec i s = loadFrom a d id n s := by
    rcases instruction with ⟨rfl, rfl, rfl⟩ | ⟨rfl, rfl, rfl⟩ | ⟨rfl, rfl, rfl⟩ | ⟨rfl, rfl, rfl⟩
    · rw [← directAddr_eq]; exact requires_of impl
    · rw [← dataAddr_x]; exact requires_of impl
    · rw [← dispAddr_y]; exact requires_of impl
    · rw [← dispAddr_z]; exact requires_of impl
  rw [ran]
  refine ⟨fun inside => ?_, fun outside => loadFrom_of_nothing outside d id n⟩
  obtain ⟨v, p, byte, done⟩ := loadFrom_of_mapped inside d id n
  exact ⟨_, done, rfl, by rw [byte, State.advance_reg]; exact congrArg some (State.reg_setReg_same ..)⟩

theorem not_mem_regs {p : Ptr} {d : Reg} (h : d ∉ p.regs) : d ≠ p.lo ∧ d ≠ p.lo + 1 := by
  simpa [Ptr.regs] using h

theorem mod_addressModulus_lt (ext : Bool) (n : Nat) : n % addressModulus ext < 2 ^ 24 := by
  cases ext
  · exact Nat.lt_of_lt_of_le (Nat.mod_lt n (by decide)) (by decide : 2 ^ 16 ≤ 2 ^ 24)
  · exact Nat.mod_lt n (by decide)

/-- Settles O49: each form is `loadFrom` with the pointer written back, which the data register is no byte of. -/
theorem loadUpdateResult : Obligations.LoadUpdateResult := by
  intro s p d i ramp port ext low a new impl disjoint parts instruction
  obtain ⟨address, _, extended, isRamp⟩ := dataAddr_of_parts parts
  have ran : exec i s = loadFrom a d (setPtr p new) 1 s := by
    rcases instruction with ⟨rfl, rfl, rfl⟩ | ⟨rfl, rfl, rfl⟩
    · rw [← incAddr_of_parts parts, ← address]
      cases p <;> exact (requires_of impl).trans (requiresDisjoint_of (not_mem_regs disjoint).1 (not_mem_regs disjoint).2)
    · rw [← decAddr_of_parts parts]
      cases p <;> exact (requires_of impl).trans (requiresDisjoint_of (not_mem_regs disjoint).1 (not_mem_regs disjoint).2)
  have small : new < 2 ^ 24 := by
    rcases instruction with ⟨_, _, rfl⟩ | ⟨_, rfl, rfl⟩ <;> exact mod_addressModulus_lt ext _
  rw [ran]
  refine ⟨fun inside => ?_, fun outside => loadFrom_of_nothing outside d _ 1⟩
  obtain ⟨v, n, byte, done⟩ := loadFrom_of_mapped inside d (setPtr p new) 1
  have written (e : ext = true) :
      (p.ramp ((setPtr p new ((s.setPlatform n).setReg d v)).advance 1)).toNat = new / 65536 % 2 ^ s.cfg.rampBits := by
    rw [ramp_advance]
    exact setPtr_ramp_toNat (extended.trans e) small
  refine ⟨_, done, setPtr_pcAfter .., ?_, setPtr_pair .., written, fun e full => ?_, fun e => ?_⟩
  · rw [byte, State.advance_reg, setPtr_reg_other p new _ disjoint, State.reg_setReg_same]
  · rw [written e, full, Nat.mod_eq_of_lt (by omega)]
  · rw [ramp_advance, setPtr_ramp, State.setReg_cfg, State.setPlatform_cfg, extended, e, ramp_setReg, ramp_setPlatform, isRamp]
    rfl

/-! ## Bytes that stay as written -/

/-- The byte at `a` of the registers, the device storage or SRAM. -/
def plainValue (s : State) (a : Nat) : Byte :=
  match place s.cfg a with
  | .register r => s.reg r
  | .io _ => s.ioAt a
  | .device => s.ioAt a
  | .sram => s.sramAt a
  | .nothing => 0

/-- Whether a CPU register is present depends on the configuration alone. -/
theorem cpuRead_isNone_congr {s t : State} (cfg : t.cfg = s.cfg) (a : BitVec 6) :
    (cpuRead t a).isNone = (cpuRead s a).isNone := by
  simp only [cpuRead, cfg, apply_ite Option.isNone, Option.isNone_some, Option.isNone_none]

theorem plainByte_congr {s t : State} (cfg : t.cfg = s.cfg) (a : Nat) : plainByte t a = plainByte s a := by
  unfold plainByte
  rw [cfg]
  split
  · rfl
  · rw [cpuRead_isNone_congr cfg]
  · rfl
  · rfl
  · rfl

theorem deviceRead_reference {s : State} (h : s.cfg.ioDevice = .reference) (a : Nat) : deviceRead a s = (s.ioAt a, s) := by
  rw [deviceRead, h]; rfl

theorem deviceWrite_reference {s : State} (h : s.cfg.ioDevice = .reference) (a : Nat) (v : Byte) :
    deviceWrite a v s = s.setIo (Memory.write Memory.ioByte s.io a v) := by
  rw [deviceWrite, h]

/-- An I/O register of the reference device, by its data address. -/
theorem plainByte_io {s : State} {a : Nat} {p : BitVec 6} (hp : place s.cfg a = .io p) (h : plainByte s a = true) :
    cpuRead s p = none ∧ s.cfg.ioDevice = .reference := by
  simpa [plainByte, hp] using h

theorem plainByte_device {s : State} {a : Nat} (hp : place s.cfg a = .device) (h : plainByte s a = true) :
    s.cfg.ioDevice = .reference := by
  simpa [plainByte, hp] using h

/-- A load of a plain byte finds it. -/
theorem dataByte_of_plain {s : State} {a : Nat} (h : plainByte s a = true) : s.dataByte a = some (plainValue s a) := by
  unfold plainValue
  split
  next r hp => exact dataByte_register hp
  next p hp =>
    obtain ⟨absent, reference⟩ := plainByte_io hp h
    rw [dataByte_io hp, ioRead_of_device absent, place_io hp, deviceRead_reference reference]
  next hp => rw [dataByte_device hp, deviceRead_reference (plainByte_device hp h)]
  next hp => exact dataByte_sram hp
  next hp => simp [plainByte, hp] at h

/-- A store to a plain byte leaves it there. -/
theorem plainValue_of_stored {s t : State} {a : Nat} {v : Byte} (inv : Invariant s) (h : plainByte s a = true)
    (stored : memWrite a v s = .next t) : plainValue t a = v := by
  obtain ⟨_, _, _, _, sram, io, _⟩ := inv
  have reads : (s.setIo (Memory.write Memory.ioByte s.io a v)).ioAt a = v := Memory.read_write_same _ _ _ _ io
  unfold plainValue
  rw [memWrite_cfg stored]
  split
  next r hp =>
    rw [memWrite_register v hp] at stored
    cases stored; exact State.reg_setReg_same s r v
  next p hp =>
    obtain ⟨absent, reference⟩ := plainByte_io hp h
    rw [memWrite_of_io v hp, (io_of_device v absent).2, place_io hp, deviceWrite_reference reference] at stored
    cases stored; exact reads
  next hp =>
    rw [memWrite_device v hp, deviceWrite_reference (plainByte_device hp h)] at stored
    cases stored; exact reads
  next hp =>
    rw [memWrite_sram v hp] at stored
    cases stored; exact sramAt_write_same sram a v
  next hp => simp [plainByte, hp] at h

/-- A stored plain byte is loaded again from every later state that keeps the memories and the register it may be. -/
theorem dataByte_of_stored {s t u : State} {a : Nat} {v : Byte} (inv : Invariant s) (h : plainByte s a = true)
    (stored : memWrite a v s = .next u) (cfg : t.cfg = u.cfg) (io : t.io = u.io) (sram : t.sram = u.sram)
    (regs : ∀ r, place s.cfg a = .register r → t.reg r = u.reg r) : t.dataByte a = some v := by
  have cfgu := memWrite_cfg stored
  have same : plainValue t a = plainValue u a := by
    unfold plainValue
    rw [cfg, cfgu]
    split
    next r hp => exact regs r hp
    next => rw [State.ioAt, State.ioAt, io]
    next => rw [State.ioAt, State.ioAt, io]
    next => rw [State.sramAt, State.sramAt, sram]
    next => rfl
  rw [dataByte_of_plain (by rwa [plainByte_congr (cfg.trans cfgu)]), same, plainValue_of_stored inv h stored]

/-! ## Stores (R231 to R235) -/

theorem storeTo_of_nothing {s : State} {a : Nat} (h : place s.cfg a = .nothing) (v : Byte) (after : State → State)
    (len : Nat) : storeTo a v after len s = .fault (.dataOutOfRange a) := by
  rw [storeTo, memWrite_nothing v h]; rfl

/-- Settles O50: each instruction is `storeTo` its address with no pointer written back. -/
theorem storeResult : Obligations.StoreResult := by
  intro s r k q i a n inv impl instruction
  have ran : exec i s = storeTo a (s.reg r) id n s := by
    rcases instruction with ⟨rfl, rfl, rfl⟩ | ⟨rfl, rfl, rfl⟩ | ⟨rfl, rfl, rfl⟩ | ⟨rfl, rfl, rfl⟩
    · rw [← directAddr_eq]; exact requires_of impl
    · rw [← dataAddr_x]; exact requires_of impl
    · rw [← dispAddr_y]; exact requires_of impl
    · rw [← dispAddr_z]; exact requires_of impl
  rw [ran]
  refine ⟨fun inside => ?_, fun outside => storeTo_of_nothing outside _ id n⟩
  obtain ⟨u, stored⟩ := memWrite_complete (s.reg r) inside
  obtain ⟨held, heldSp⟩ := memWrite_held stored
  exact ⟨_, storeTo_eq_next.mpr ⟨u, stored, rfl⟩, memWrite_pcAfter stored n,
    fun plain => dataByte_of_stored inv plain stored rfl rfl rfl fun _ _ => rfl, held, heldSp⟩

/-- A store that does not land on the RAMP register of a pointer keeps it. -/
theorem memWrite_ramp {s u : State} {a : Nat} {v : Byte} {p : Ptr} {ramp : Byte} {port : BitVec 6} {ext : Bool} {low : Word}
    (parts : pointerParts s p ramp port ext low) (stored : memWrite a v s = .next u) (miss : place s.cfg a ≠ .io port) :
    p.ramp u = ramp := by
  have frame : Frame { stores := [a] } s u := (Frame.refl _ s).memWrite List.mem_cons_self stored
  have noHit : ¬ Change.hits { stores := [a] } s (.io port) := fun ⟨b, hb, there⟩ => by
    rw [List.mem_singleton.mp hb] at there
    exact miss there
  rcases parts with ⟨rfl, rfl, rfl, _, _⟩ | ⟨rfl, rfl, rfl, _, _⟩ | ⟨rfl, rfl, rfl, _, _⟩
  · exact frame.rampx List.not_mem_nil noHit
  · exact frame.rampy List.not_mem_nil noHit
  · exact frame.rampz List.not_mem_nil noHit

/-- What a CPU register holds after a store is still there after the pointer was written back, unless that register is the
RAMP register written with the pointer. -/
theorem held_setPtr {s u : State} {a n : Nat} {v : Byte} {p : Ptr} {ramp : Byte} {port : BitVec 6} {ext : Bool} {low : Word}
    (parts : pointerParts s p ramp port ext low) (cfg : u.cfg = s.cfg) (held : heldByCpuRegister s u a v)
    (spared : ext = false ∨ place s.cfg a ≠ .io port) : heldByCpuRegister s (setPtr p n u) a v := by
  obtain ⟨sreg, eind, rampz, rampy, rampx, rampd⟩ := held
  obtain ⟨_, sregKept, _, rampdKept, eindKept, _⟩ := setPtr_fields p n u
  obtain ⟨_, _, extended, _⟩ := dataAddr_of_parts parts
  have own (at_port : place s.cfg a = .io port) : p.ramp (setPtr p n u) = p.ramp u := by
    rw [setPtr_ramp, cfg, extended, spared.resolve_right (not_not_intro at_port)]; rfl
  have other {q : Ptr} (h : q ≠ p) : q.ramp (setPtr p n u) = q.ramp u := setPtr_ramp_other h n u
  refine ⟨fun h => sregKept.trans (sreg h), fun h e => by rw [eindKept]; exact eind h e, fun h e => ?rampz,
    fun h e => ?rampy, fun h e => ?rampx, fun h e => by rw [rampdKept]; exact rampd h e⟩
  case rampz =>
    have kept : Ptr.z.ramp (setPtr p n u) = Ptr.z.ramp u := by
      rcases parts with ⟨rfl, _⟩ | ⟨rfl, _⟩ | ⟨rfl, _, rfl, _⟩
      · exact other (by decide)
      · exact other (by decide)
      · exact own h
    exact (congrArg BitVec.toNat kept).trans (rampz h e)
  case rampy =>
    have kept : Ptr.y.ramp (setPtr p n u) = Ptr.y.ramp u := by
      rcases parts with ⟨rfl, _⟩ | ⟨rfl, _, rfl, _⟩ | ⟨rfl, _⟩
      · exact other (by decide)
      · exact own h
      · exact other (by decide)
    exact (congrArg BitVec.toNat kept).trans (rampy h e)
  case rampx =>
    have kept : Ptr.x.ramp (setPtr p n u) = Ptr.x.ramp u := by
      rcases parts with ⟨rfl, _, rfl, _⟩ | ⟨rfl, _⟩ | ⟨rfl, _⟩
      · exact own h
      · exact other (by decide)
      · exact other (by decide)
    exact (congrArg BitVec.toNat kept).trans (rampx h e)

/-- Settles O51: each form is `storeTo` with the pointer written back after the store. -/
theorem storeUpdateResult : Obligations.StoreUpdateResult := by
  intro s p r i ramp port ext low a new inv impl disjoint parts instruction
  obtain ⟨address, _, extended, _⟩ := dataAddr_of_parts parts
  have ran : exec i s = storeTo a (s.reg r) (setPtr p new) 1 s := by
    rcases instruction with ⟨rfl, rfl, rfl⟩ | ⟨rfl, rfl, rfl⟩
    · rw [← incAddr_of_parts parts, ← address]
      cases p <;> exact (requires_of impl).trans (requiresDisjoint_of (not_mem_regs disjoint).1 (not_mem_regs disjoint).2)
    · rw [← decAddr_of_parts parts]
      cases p <;> exact (requires_of impl).trans (requiresDisjoint_of (not_mem_regs disjoint).1 (not_mem_regs disjoint).2)
  have small : new < 2 ^ 24 := by
    rcases instruction with ⟨_, _, rfl⟩ | ⟨_, rfl, rfl⟩ <;> exact mod_addressModulus_lt ext _
  rw [ran]
  refine ⟨fun inside => ?_, fun outside => storeTo_of_nothing outside _ _ 1⟩
  obtain ⟨u, stored⟩ := memWrite_complete (s.reg r) inside
  obtain ⟨held, heldSp⟩ := memWrite_held stored
  have cfg := memWrite_cfg stored
  obtain ⟨cfgKept, _, spKept, _, _, ioKept, sramKept, _⟩ := setPtr_fields p new u
  have written (e : ext = true) : (p.ramp ((setPtr p new u).advance 1)).toNat = new / 65536 % 2 ^ s.cfg.rampBits := by
    rw [ramp_advance, setPtr_ramp_toNat (by rw [cfg, extended, e]) small, cfg]
  refine ⟨_, storeTo_eq_next.mpr ⟨u, stored, rfl⟩, (setPtr_pcAfter ..).trans (memWrite_pcAfter stored 1), setPtr_pair ..,
    written, fun e full => ?_, fun e miss => ?_, fun plain outside => ?_, held_setPtr parts cfg held, ?_⟩
  · rw [written e, full, Nat.mod_eq_of_lt (by omega)]
  · rw [ramp_advance, setPtr_ramp, cfg, extended, e]
    exact memWrite_ramp parts stored miss
  · exact dataByte_of_stored inv plain stored cfgKept ioKept sramKept fun g hg =>
      setPtr_reg_other p new u fun inPtr => outside g inPtr hg
  · obtain ⟨high, low16, low8⟩ := heldSp
    exact ⟨fun h c b => spKept.trans (high h c b), fun h c b => spKept.trans (low16 h c b),
      fun h c b => spKept.trans (low8 h c b)⟩

/-! ## PUSH and POP (R221, R222) -/

/-- Settles O52: PUSH is a store at SP and POP a load above it. -/
theorem pushPopResult : Obligations.PushPopResult := by
  intro s r inv h
  refine ⟨fun impl => ?_, fun impl => ?_⟩
  · rw [spMinus_zero inv.2.1]
    refine ⟨fun inside => ?_, fun outside => ?_⟩
    · obtain ⟨u, stored⟩ := memWrite_complete (s.reg r) inside
      have cfg := memWrite_cfg stored
      have pushed : push (s.reg r) s = .next (u.setSp (spBelow s)) := push_eq_next.mpr ⟨u, stored, rfl⟩
      refine ⟨_, (requires_of impl).trans (andThen_eq_next.mpr ⟨_, pushed, rfl⟩), memWrite_pcAfter stored 1, ?_,
        fun plain => dataByte_of_stored inv plain stored rfl rfl rfl fun _ _ => rfl, (memWrite_held stored).1⟩
      rw [spMinus_one, ← cfg]
      exact toNat_setSp (by rw [cfg]; exact spBits_le h) _
    · refine (requires_of impl).trans ?_
      rw [push, memWrite_nothing _ outside]; rfl
  · refine ⟨fun inside => ?_, fun outside => ?_⟩
    · obtain ⟨v, p, popped, byte⟩ := pop_of_mapped h inside
      refine ⟨_, (requires_of impl).trans (andThen_eq_next.mpr ⟨_, popped, rfl⟩), rfl, ?_, ?_⟩
      · exact (toNat_setSp (spBits_le h) _).trans (Nat.mod_mod _ _)
      · rw [byte, State.advance_reg, State.reg_setReg_same]
    · refine (requires_of impl).trans ?_
      rw [pop_eq h, memRead_nothing (s := s.setSp (s.spPlus 1)) outside]; rfl

end Sys2Proof.Machine
end

section
/-! The loads of program memory and the XMEGA read-modify-write instructions (spec/43_transfer_program_memory.md,
spec/47_xmega_rmw_des.md). -/

namespace Sys2Proof.Machine

open Sys2Proof

/-! ## LPM and ELPM (R250 to R255) -/

theorem loadProgram_of_lt {b : Nat} {s : State} (h : b / 2 < s.cfg.flashWords) (d : Reg) (after : State → State) :
    loadProgram b d after s = .next ((after (s.setReg d (s.flashAt b))).advance 1) :=
  loadProgram_eq_next.mpr ⟨h, rfl⟩

theorem loadProgram_of_le {b : Nat} {s : State} (h : s.cfg.flashWords ≤ b / 2) (d : Reg) (after : State → State) :
    loadProgram b d after s = .fault (.progReadOutOfRange b) := by
  rw [loadProgram, progByte_of_le h]; rfl

/-- What every form says of its result, beside what `pointer` says of the pointer and RAMPZ. -/
def ProgramLoad (s : State) (d : Reg) (i : Instr) (b : Nat) (pointer : State → Prop) : Prop :=
  (b / 2 < s.cfg.flashWords → ∃ t, exec i s = .next t ∧ t.pc = s.pcAfter 1 ∧ t.reg d = s.flashAt b ∧ pointer t) ∧
    (s.cfg.flashWords ≤ b / 2 → exec i s = .fault (.progReadOutOfRange b))

/-- A form without pointer update. -/
theorem programLoad_plain {s : State} {d : Reg} {i : Instr} {b : Nat} {pointer : State → Prop}
    (ran : exec i s = loadProgram b d id s) (h : ∀ t, pointer t) : ProgramLoad s d i b pointer := by
  unfold ProgramLoad
  rw [ran]
  exact ⟨fun inside => ⟨_, loadProgram_of_lt inside d id, rfl, State.reg_setReg_same .., h _⟩,
    fun beyond => loadProgram_of_le beyond d id⟩

/-- A register outside Z is no byte of the pair written back. -/
theorem reg_setPair_other {s : State} {p : Ptr} {d : Reg} (h : d ∉ p.regs) (w : Word) :
    (s.setPair p.lo w).reg d = s.reg d := by
  rw [State.reg_setPair, if_neg (not_mem_regs h).2, if_neg (not_mem_regs h).1]

theorem rampzZ_add_low {s : State} (h : s.cfg.hasRampZ = true) :
    (rampzZ s + 1).extractLsb' 0 16 = BitVec.ofNat 16 (s.rampz.toNat * 65536 + (s.pair 30).toNat + 1) := by
  apply BitVec.eq_of_toNat_eq
  rw [BitVec.extractLsb'_toNat, BitVec.toNat_add, toNat_rampzZ h, BitVec.toNat_ofNat, Nat.shiftRight_zero]
  exact Nat.mod_mod_of_dvd _ (by decide : 2 ^ 16 ∣ 2 ^ 24)

/-- With all 8 bits of RAMPZ implemented, the address written back is the whole address modulo 2^24. -/
theorem address_of_parts (n : Nat) :
    (maskBits 8 (BitVec.ofNat 8 (n / 65536))).toNat * 65536 + (BitVec.ofNat 16 n).toNat = n % 2 ^ 24 := by
  rw [toNat_maskBits, BitVec.toNat_ofNat, BitVec.toNat_ofNat]
  omega

/-- Settles O53: each form is `loadProgram`; only the Z+ forms write the pointer back. -/
theorem programLoadResult : Obligations.ProgramLoadResult := by
  intro s d i b impl instruction
  change ProgramLoad s d i b fun t => (i = .lpmZInc d → t.pair 30 = s.pair 30 + 1 ∧ t.rampz = s.rampz) ∧
      (i = .elpmZInc d → t.pair 30 = BitVec.ofNat 16 (b + 1) ∧
        t.rampz = maskBits s.cfg.rampBits (BitVec.ofNat 8 ((b + 1) / 65536)) ∧
        (s.cfg.rampBits = 8 → t.rampz.toNat * 65536 + (t.pair 30).toNat = (b + 1) % 2 ^ 24))
  have hasRampZ {j : Instr} {x : Bool} (e : coreImplements s.cfg j = (s.cfg.hasRampZ && x))
      (h : implements s.cfg j = true) : s.cfg.hasRampZ = true :=
    (Bool.and_eq_true_iff.mp (e ▸ (Bool.and_eq_true_iff.mp h).1)).1
  rcases instruction with ⟨⟨rfl, rfl⟩ | rfl | ⟨rfl, outside⟩, rfl⟩ | ⟨⟨rfl, rfl⟩ | rfl | ⟨rfl, outside⟩, rfl⟩
  · exact programLoad_plain (requires_of impl) fun _ => ⟨nofun, nofun⟩
  · exact programLoad_plain (requires_of impl) fun _ => ⟨nofun, nofun⟩
  · obtain ⟨low, high⟩ := not_mem_regs outside
    have ran : exec (.lpmZInc d) s = loadProgram (zAddr s) d (fun t => t.setPair 30 (s.pair 30 + 1)) s :=
      (requires_of impl).trans (requiresDisjoint_of low high)
    refine ⟨fun inside => ⟨_, ran.trans (loadProgram_of_lt inside d _), rfl, ?_, fun _ => ⟨?_, rfl⟩, nofun⟩,
      fun beyond => ran.trans (loadProgram_of_le beyond d _)⟩
    · exact (reg_setPair_other (p := .z) outside _).trans (State.reg_setReg_same ..)
    · exact State.pair_setPair _ 30 _
  · rw [← toNat_rampzZ (hasRampZ rfl impl)]
    exact programLoad_plain (requires_of impl) fun _ => ⟨nofun, nofun⟩
  · rw [← toNat_rampzZ (hasRampZ rfl impl)]
    exact programLoad_plain (requires_of impl) fun _ => ⟨nofun, nofun⟩
  · obtain ⟨low, high⟩ := not_mem_regs outside
    have present := hasRampZ rfl impl
    have ran : exec (.elpmZInc d) s = loadProgram (rampzZ s).toNat d (fun t =>
        (t.setPair 30 ((rampzZ s + 1).extractLsb' 0 16)).setRampz ((rampzZ s + 1).extractLsb' 16 8)) s :=
      (requires_of impl).trans (requiresDisjoint_of low high)
    rw [toNat_rampzZ present] at ran
    have pair (u : State) : ((u.setPair 30 ((rampzZ s + 1).extractLsb' 0 16)).setRampz
        ((rampzZ s + 1).extractLsb' 16 8)).pair 30 = BitVec.ofNat 16 (s.rampz.toNat * 65536 + (s.pair 30).toNat + 1) :=
      (State.pair_setPair u 30 _).trans (rampzZ_add_low present)
    have rampz (v : Byte) : (((s.setReg d v).setPair 30 ((rampzZ s + 1).extractLsb' 0 16)).setRampz
        ((rampzZ s + 1).extractLsb' 16 8)).rampz =
          maskBits s.cfg.rampBits (BitVec.ofNat 8 ((s.rampz.toNat * 65536 + (s.pair 30).toNat + 1) / 65536)) :=
      congrArg (maskBits s.cfg.rampBits) (rampzZ_add_high present 1)
    refine ⟨fun inside => ⟨_, ran.trans (loadProgram_of_lt inside d _), rfl, ?_, nofun,
      fun _ => ⟨pair _, rampz _, fun full => ?_⟩⟩, fun beyond => ran.trans (loadProgram_of_le beyond d _)⟩
    · exact (reg_setPair_other (p := .z) outside _).trans (State.reg_setReg_same ..)
    · rw [State.advance_pair, State.advance_rampz, pair, rampz, full, address_of_parts]

/-! ## XCH, LAS, LAC, LAT (R305 to R308) -/

/-- A read-modify-write at a mapped address: the byte read, and the store of the byte made of it. -/
theorem readModifyWrite_of_mapped {s : State} (f : Byte → Byte → Byte) (d : Reg)
    (h : mapped s.cfg (dataAddr .z s) = true) :
    ∃ old p u, s.dataByte (dataAddr .z s) = some old ∧
      memWrite (dataAddr .z s) (f old (s.reg d)) (s.setPlatform p) = .next u ∧
      readModifyWrite f d s = .next ((u.setReg d old).advance 1) := by
  obtain ⟨old, p, read, byte⟩ := memRead_of_mapped h
  obtain ⟨u, stored⟩ := memWrite_complete (s := s.setPlatform p) (f old (s.reg d)) h
  exact ⟨old, p, u, byte, stored, readModifyWrite_eq_next.mpr ⟨old, _, u, read, stored, rfl⟩⟩

theorem lowRegs_setLowRegs (s : State) (v : Vector Byte 16) : (s.setLowRegs v).lowRegs = v := by
  refine Vector.ext fun j hj => ?_
  have number : (BitVec.ofNat 5 j).toNat = j := by rw [BitVec.toNat_ofNat]; omega
  have value := State.reg_setLowRegs s v (BitVec.ofNat 5 j)
  simp only [State.reg, number, hj, dite_true] at value
  rw [State.lowRegs, Vector.getElem_ofFn]
  exact value

/-- Settles O60: the four instructions differ in the function of the old byte and Rd that they store. -/
theorem readModifyWriteResult : Obligations.ReadModifyWriteResult := by
  intro s d
  refine ⟨fun i f a impl instruction address => ?rmw, fun k impl => ⟨_, requires_of impl, rfl, ?low, fun r hr => ?high⟩⟩
  case rmw =>
    rw [← dataAddr_z] at address
    subst address
    obtain ⟨g, ran, bits⟩ : ∃ g : Byte → Byte → Byte, exec i s = readModifyWrite g d s ∧
        ∀ x y j, j < 8 → (g x y).getLsbD j = f (x.getLsbD j) (y.getLsbD j) := by
      rcases instruction with ⟨rfl, rfl⟩ | ⟨rfl, rfl⟩ | ⟨rfl, rfl⟩ | ⟨rfl, rfl⟩
      · exact ⟨_, requires_of impl, fun _ _ _ _ => rfl⟩
      · exact ⟨_, requires_of impl, fun _ _ _ _ => BitVec.getLsbD_or⟩
      · exact ⟨_, requires_of impl, fun _ _ j hj => by
          rw [BitVec.getLsbD_and, BitVec.getLsbD_not, decide_eq_true hj, Bool.true_and]⟩
      · exact ⟨_, requires_of impl, fun _ _ _ _ => BitVec.getLsbD_xor⟩
    rw [ran]
    refine ⟨fun inside => ?_, fun outside => by rw [readModifyWrite, memRead_nothing outside]; rfl⟩
    obtain ⟨old, p, u, byte, stored, done⟩ := readModifyWrite_of_mapped g d inside
    obtain ⟨held, heldSp⟩ := memWrite_held stored
    refine ⟨_, old, g old (s.reg d), done, memWrite_pcAfter stored 1, byte, State.reg_setReg_same .., bits old (s.reg d),
      fun inSram ok => ?_, fun inv plain notRd => ?_, held, heldSp⟩
    · rw [memWrite_sram (s := s.setPlatform p) _ (place_of_isSram inSram)] at stored
      cases stored
      exact sramAt_write_same (s := s.setPlatform p) ok _ _
    · exact dataByte_of_stored (s := s.setPlatform p) (inv.setPlatform p) plain stored rfl rfl rfl fun r hr =>
        State.reg_setReg_other u old fun e => notRd (e ▸ hr)
  case low =>
    exact lowRegs_setLowRegs s _
  case high => exact (State.reg_setLowRegs s _ r).trans (dif_neg (Nat.not_lt.mpr hr))

end Sys2Proof.Machine
end

section
/-! The interrupt hold-off: what arms it (spec/10_state.md R57, spec/60_exceptions.md R326). -/

namespace Sys2Proof.Machine

open Sys2Proof

/-! ## Setting I arms the hold-off -/

/-- Once I is set where `I0` says it was clear, the hold-off is armed. -/
theorem setting_I_arms_stable (I0 : Bool) : Stable fun u => I0 = false → u.flag .I = true → u.irqHoldoff = true where
  regs _ h := h
  pc _ h := h
  sreg keeps h was now := h was (keeps now)
  writeSreg {s} v h was now := by
    rw [State.writeSreg_irqHoldoff, show getFlag v .I = true from now]
    cases I : getFlag s.sreg .I
    · simp
    · rw [h was I, Bool.true_or]
  sp _ h := h
  rampx _ _ h := h
  rampy _ _ h := h
  rampz _ _ h := h
  rampd _ _ h := h
  eind _ _ h := h
  sram _ h := h
  io _ h := h
  flash _ _ h := h
  platform _ h := h
  holdoff h was now := by rw [State.setHoldoff_irqHoldoff, h was now, Bool.true_or]
  run _ h := h

/-! ## Nothing else does, outside XMEGA -/

/-- SREG and the hold-off are as before. -/
def KeepsHoldoff (s t : State) : Prop := t.sreg = s.sreg ∧ t.irqHoldoff = s.irqHoldoff

/-- The hold-off is armed only where it was, or with I going from 0 to 1. -/
def ArmsByI (s t : State) : Prop :=
  t.irqHoldoff = true → s.irqHoldoff = true ∨ (s.flag .I = false ∧ t.flag .I = true)

variable {s t u : State}

theorem KeepsHoldoff.armsByI (h : KeepsHoldoff s t) : ArmsByI s t := fun armed => .inl (h.2 ▸ armed)

theorem KeepsHoldoff.trans (h : KeepsHoldoff s t) (h' : KeepsHoldoff t u) : KeepsHoldoff s u :=
  ⟨h'.1.trans h.1, h'.2.trans h.2⟩

theorem ArmsByI.keeps (h : ArmsByI s t) (h' : KeepsHoldoff t u) : ArmsByI s u := fun armed => by
  have flag : u.flag .I = t.flag .I := congrArg (getFlag · .I) h'.1
  rw [flag]
  exact h (h'.2 ▸ armed)

theorem KeepsHoldoff.arms (h : KeepsHoldoff s t) (h' : ArmsByI t u) : ArmsByI s u := fun armed => by
  have flag : t.flag .I = s.flag .I := congrArg (getFlag · .I) h.1
  rw [← flag, ← h.2]
  exact h' armed

theorem writeSreg_armsByI (s : State) (v : Byte) : ArmsByI s (s.writeSreg v) := fun armed => by
  rw [State.writeSreg_irqHoldoff, Bool.or_eq_true, Bool.and_eq_true, Bool.not_eq_true'] at armed
  exact armed.imp id And.symm

theorem deviceWrite_keepsHoldoff (a : Nat) (v : Byte) (s : State) : KeepsHoldoff s (deviceWrite a v s) := by
  rcases deviceWrite_cases a v s with ⟨_, e⟩ | ⟨_, p, e⟩ <;> rw [e] <;> exact ⟨rfl, rfl⟩

/-- Outside XMEGA a store touches SREG and the hold-off only at the address of SREG, and arms it there only with I. -/
theorem memWrite_holdoff {a : Nat} {v : Byte} (classic : s.cfg.isXmega = false) (h : memWrite a v s = .next t) :
    (place s.cfg a ≠ .io 0x3F → KeepsHoldoff s t) ∧ ArmsByI s t := by
  have kept (k : KeepsHoldoff s t) : (place s.cfg a ≠ .io 0x3F → KeepsHoldoff s t) ∧ ArmsByI s t := ⟨fun _ => k, k.armsByI⟩
  rcases memWrite_cases h with ⟨r, _, rfl⟩ | ⟨p, u, there, hu, rfl⟩ | ⟨p, _, _, rfl⟩ | ⟨_, rfl⟩ | ⟨_, rfl⟩
  · exact kept ⟨rfl, rfl⟩
  · rcases cpuWrite_cases hu with ⟨rfl, rfl⟩ | ⟨_, rfl⟩ | ⟨_, rfl⟩ | ⟨_, _, rfl⟩ | ⟨_, _, rfl⟩ | ⟨_, _, rfl⟩ | ⟨_, _, rfl⟩ |
      ⟨_, _, rfl⟩
    · exact ⟨fun miss => absurd there miss, writeSreg_armsByI s v⟩
    · exact kept ⟨rfl, rfl⟩
    · exact kept ⟨rfl, by rw [State.writeSpl_irqHoldoff, classic, Bool.or_false]⟩
    all_goals exact kept ⟨rfl, rfl⟩
  · exact kept (deviceWrite_keepsHoldoff ..)
  · exact kept (deviceWrite_keepsHoldoff ..)
  · exact kept ⟨rfl, rfl⟩

theorem ioWrite_armsByI (classic : s.cfg.isXmega = false) (a : BitVec 6) (v : Byte) : ArmsByI s (ioWrite a v s) :=
  (memWrite_holdoff classic (memWrite_ioBase a v s)).2

theorem storeTo_armsByI {a : Nat} {v : Byte} {after : State → State} {len : Nat} (classic : s.cfg.isXmega = false)
    (hafter : ∀ w, KeepsHoldoff w (after w)) (h : storeTo a v after len s = .next t) : ArmsByI s t := by
  obtain ⟨w, stored, rfl⟩ := storeTo_eq_next.mp h
  exact (memWrite_holdoff classic stored).2.keeps (hafter w)

theorem setPtr_keepsHoldoff (p : Ptr) (n : Nat) (w : State) : KeepsHoldoff w (setPtr p n w) := by
  obtain ⟨_, sreg, _, _, _, _, _, holdoff⟩ := setPtr_fields p n w
  exact ⟨sreg, holdoff⟩

theorem push_holdoff {v : Byte} (classic : s.cfg.isXmega = false) (h : push v s = .next t) :
    (place s.cfg s.sp.toNat ≠ .io 0x3F → KeepsHoldoff s t) ∧ ArmsByI s t := by
  obtain ⟨w, stored, rfl⟩ := push_eq_next.mp h
  obtain ⟨keeps, arms⟩ := memWrite_holdoff classic stored
  exact ⟨keeps, arms⟩

/-! ## Three pushes reach SREG at most once -/

theorem push_next_sp {v : Byte} (h : s.cfg.widthsOk = true) (pushed : push v s = .next t) : t.sp.toNat = s.spMinus 1 := by
  rw [(Frame.push_sp pushed).2, toNat_setSp_below h]

/-- The addresses of the three pushes are different, even with bits of SP above its width. -/
theorem push_addresses_ne (h : s.cfg.widthsOk = true) :
    s.sp.toNat ≠ s.spMinus 1 ∧ s.sp.toNat ≠ s.spMinus 2 ∧ s.spMinus 1 ≠ s.spMinus 2 := by
  unfold State.spMinus
  obtain ⟨_, e | e⟩ := widths_of_ok h <;> rw [e] <;> omega

/-- SREG has one address. -/
theorem not_both_at {c : Config} {p : BitVec 6} {a b : Nat} (ne : a ≠ b) (ha : place c a = .io p) : place c b ≠ .io p :=
  fun hb => ne ((place_io ha).symm.trans (place_io hb))

theorem pushPc_armsByI {r : BitVec 22} (classic : s.cfg.isXmega = false) (h : s.cfg.widthsOk = true)
    (pushed : pushPc r s = .next t) : ArmsByI s t := by
  obtain ⟨s1, s2, h1, h2, h3⟩ := pushPc_eq_next.mp pushed
  have c1 : s1.cfg = s.cfg := (Frame.push_sp h1).1
  have c2 : s2.cfg = s.cfg := (Frame.push_sp h2).1.trans c1
  have p1 : s1.sp.toNat = s.spMinus 1 := push_next_sp h h1
  have p2 : s2.sp.toNat = s.spMinus 2 := by rw [push_next_sp (by rwa [c1]) h2, spMinus_of_below c1 p1]
  obtain ⟨ne01, ne02, ne12⟩ := push_addresses_ne h
  obtain ⟨keeps1, arms1⟩ := push_holdoff classic h1
  obtain ⟨keeps2, arms2⟩ := push_holdoff (by rwa [c1]) h2
  rw [c1, p1] at keeps2
  have last : (place s.cfg (s.spMinus 2) ≠ .io 0x3F → KeepsHoldoff s2 t) ∧ ArmsByI s2 t := by
    split at h3
    · rw [← p2, ← c2]; exact push_holdoff (by rwa [c2]) h3
    · cases h3; exact ⟨fun _ => ⟨rfl, rfl⟩, KeepsHoldoff.armsByI ⟨rfl, rfl⟩⟩
  obtain ⟨keeps3, arms3⟩ := last
  by_cases first : place s.cfg s.sp.toNat = .io 0x3F
  · exact arms1.keeps ((keeps2 (not_both_at ne01 first)).trans (keeps3 (not_both_at ne02 first)))
  · refine (keeps1 first).arms ?_
    by_cases second : place s.cfg (s.spMinus 1) = .io 0x3F
    · exact arms2.keeps (keeps3 (not_both_at ne12 second))
    · exact (keeps2 second).arms arms3

/-! ## Every instruction -/

/-- An instruction whose frame lists neither the hold-off nor a store does not arm it. -/
theorem exec_keeps_holdoff {i : Instr} (h : exec i s = .next t) (holdoff : (changes i s).holdoff = false)
    (stores : (changes i s).stores = []) : t.irqHoldoff = s.irqHoldoff := by
  have noHit (p : Place) : ¬ (changes i s).hits s p := fun ⟨a, ha, _⟩ => by
    rw [stores] at ha
    exact absurd ha List.not_mem_nil
  exact (exec_frame h).holdoff holdoff (noHit _) (noHit _)

/-- R57: outside XMEGA every instruction but RETI arms the hold-off only by setting I: BSET, or a store to SREG. -/
theorem exec_armsByI {i : Instr} (h : exec i s = .next t) (classic : s.cfg.isXmega = false) (widths : s.cfg.widthsOk = true)
    (notReti : i ≠ .reti) : ArmsByI s t := by
  have refl (w : State) : KeepsHoldoff w w := ⟨rfl, rfl⟩
  cases i with
  | reti => exact absurd rfl notReti
  | bset b => cases h; exact writeSreg_armsByI s _
  | sts k r | stX r | stdY q r | stdZ q r =>
    obtain ⟨_, h⟩ := requires_eq_next.mp h; exact storeTo_armsByI classic refl h
  | stXInc r | stXDec r | stYInc r | stYDec r | stZInc r | stZDec r =>
    obtain ⟨_, h⟩ := requires_eq_next.mp h
    obtain ⟨_, _, h⟩ := requiresDisjoint_eq_next.mp h
    exact storeTo_armsByI classic (setPtr_keepsHoldoff _ _) h
  | out a r => obtain ⟨_, ⟨⟩⟩ := requires_eq_next.mp h; exact ioWrite_armsByI classic a (s.reg r)
  | sbi a b | cbi a b =>
    cases h
    obtain ⟨p, read, _⟩ := ioRead_state (a.setWidth 6) s
    rw [read]
    exact ioWrite_armsByI (s := s.setPlatform p) classic (a.setWidth 6) _
  | push r =>
    obtain ⟨_, h⟩ := requires_eq_next.mp h
    obtain ⟨w, pushed, ⟨⟩⟩ := andThen_eq_next.mp h
    exact (push_holdoff classic pushed).2
  | xch d | las d | lac d | lat d =>
    obtain ⟨_, h⟩ := requires_eq_next.mp h
    obtain ⟨v, w, x, read, stored, rfl⟩ := readModifyWrite_eq_next.mp h
    obtain ⟨p, rfl, _⟩ := memRead_state read
    exact (memWrite_holdoff (s := s.setPlatform p) classic stored).2
  | rcall k | icall | eicall | call k =>
    obtain ⟨_, h⟩ := requires_eq_next.mp h
    obtain ⟨w, pushed, rfl⟩ := callTo_eq_next.mp h
    exact (pushPc_armsByI classic widths pushed).keeps ⟨rfl, rfl⟩
  | _ => exact fun armed => .inl (exec_keeps_holdoff h rfl rfl ▸ armed)

/-- Settles O14: setting I arms the hold-off in every single operation; outside XMEGA nothing else does but RETI. -/
theorem holdoffArmedBySettingI : Obligations.HoldoffArmedBySettingI := by
  intro i s t widths off h
  refine ⟨?_, fun classic armed notReti => ?_⟩
  · exact (setting_I_arms_stable (s.flag .I)).exec h (fun _ u _ _ _ => finishReti_irqHoldoff u)
      fun was now => by rw [was] at now; cases now
  · refine (exec_armsByI h classic widths notReti armed).resolve_left fun on => ?_
    rw [off] at on
    cases on

end Sys2Proof.Machine
end
